-- ==== Sys2Proof/Word.lean ====
section
/-! DEFINITION. The one data word of the block: an unsigned 8-bit byte (spec/00_scope.md R9, R10). -/

namespace Sys2Proof

/-- A byte, 0x00 to 0xFF, bit 0 the least significant (R10). Every datum of the block is one (R9). -/
abbrev Byte := BitVec 8

end Sys2Proof
end

