-- ==== Sys2Proof/Syntax.lean ====
section
/-! DEFINITION. The instructions (command frames, spec/30_encoding.md R82, R88) and the events that are the block's inputs
(spec/60_exceptions.md R211). -/

namespace Sys2Proof

/-- One constructor per row of spec/opcode_table.json. Every operand is one unsigned frame byte (R83, R84). -/
inductive Instr
  /-- READ p (R130): format F2. -/
  | read (p : Byte)
  /-- WRITE p, d0 d1 d2 d3 (R150): format F6. -/
  | write (p d0 d1 d2 d3 : Byte)
  /-- GET_VERSION (R142): format F1. -/
  | getVersion
  /-- BD_TOGGLE (R170): format F3 with the fixed pages 133, 134. -/
  | bdToggle
  /-- FAST_READ s, e (R135): format F3. -/
  | fastRead (s e : Byte)
  /-- PWD_AUTH k0 k1 k2 k3 (R165): format F5. -/
  | pwdAuth (k0 k1 k2 k3 : Byte)
  /-- READ_SIG a (R140): format F2; no rule reads `a`. -/
  | readSig (a : Byte)
  /-- RESTART_NFC (R175): format F1. -/
  | restartNfc
  /-- KEEPALIVE_1A (R178): format F1. -/
  | keepalive1A
  /-- KEEPALIVE_93 (R179): format F1. -/
  | keepalive93
  deriving DecidableEq, Repr

/-- The five kinds of event of R211. A frame is any byte string (R80); a host image is 572 bytes (R196). -/
inductive Event
  | frame (f : List Byte)
  | activate
  | deactivate
  | hostLoad (img : Vector Byte 572)
  | hostRead
  deriving DecidableEq, Repr

end Sys2Proof
end

