-- ==== Sys2Proof/WellFormed.lean ====
section
/-! DEFINITION. Which instructions have an encoding of their own (spec/30_encoding.md R82, R89; spec/41_read_commands.md
R135). -/

namespace Sys2Proof

/-- A FAST_READ names any pair of pages but (133, 134): that pair's frame is BD_TOGGLE, never FAST_READ (R89, R135). Every
other operand is a free frame byte (R84). -/
def Instr.wf : Instr → Bool
  | .fastRead s e => !(s == 133#8 && e == 134#8)
  | .read _ => true
  | .write _ _ _ _ _ => true
  | .getVersion => true
  | .bdToggle => true
  | .pwdAuth _ _ _ _ => true
  | .readSig _ => true
  | .restartNfc => true
  | .keepalive1A => true
  | .keepalive93 => true

end Sys2Proof
end

