-- ==== Sys2Proof/Decode.lean ====
section
/-! DEFINITION. Decoding of a command frame (spec/30_encoding.md R80 to R92), total on every byte string, and the encoder
written from the same tables. -/

namespace Sys2Proof

/-- The nine command codes of R88; BD_TOGGLE shares FAST_READ's code (R89). -/
inductive Code
  | read
  | write
  | getVersion
  | fastRead
  | pwdAuth
  | readSig
  | restartNfc
  | keepalive1A
  | keepalive93
  deriving DecidableEq, Repr

/-- The byte of each command code (R88). -/
def codeByte : Code → Byte
  | .read => 0x30#8
  | .write => 0xA2#8
  | .getVersion => 0x60#8
  | .fastRead => 0x3A#8
  | .pwdAuth => 0x1B#8
  | .readSig => 0x3C#8
  | .restartNfc => 0x88#8
  | .keepalive1A => 0x1A#8
  | .keepalive93 => 0x93#8

/-- The command code a frame's first byte selects, if it is in the map of R88. -/
def codeOf (c : Byte) : Option Code :=
  if c = 0x30#8 then some .read
  else if c = 0xA2#8 then some .write
  else if c = 0x60#8 then some .getVersion
  else if c = 0x3A#8 then some .fastRead
  else if c = 0x1B#8 then some .pwdAuth
  else if c = 0x3C#8 then some .readSig
  else if c = 0x88#8 then some .restartNfc
  else if c = 0x1A#8 then some .keepalive1A
  else if c = 0x93#8 then some .keepalive93
  else none

/-- The required frame length of each code's format, the code byte counted (R82, R90). -/
def requiredLength : Code → Nat
  | .read => 2
  | .write => 6
  | .getVersion => 1
  | .fastRead => 3
  | .pwdAuth => 5
  | .readSig => 2
  | .restartNfc => 1
  | .keepalive1A => 1
  | .keepalive93 => 1

/-- What a frame decodes to (R90): an instruction, `SHORT` (R86, R87) or `UNKNOWN(c)` (R91). The last two are answered by
the machine as their rules say; neither stops it. -/
inductive Decoded
  | instr (i : Instr)
  | short
  | unknown (c : Byte)
  deriving DecidableEq, Repr

/-- The operands of a frame whose code is `k`, read from the bytes after the code in the order of R82. Bytes past the
format's length are ignored (R85); too few are `SHORT` (R86). -/
def decodeOperands (k : Code) (ops : List Byte) : Decoded :=
  match k with
  | .read =>
    match ops with
    | p :: _ => .instr (.read p)
    | _ => .short
  | .write =>
    match ops with
    | p :: d0 :: d1 :: d2 :: d3 :: _ => .instr (.write p d0 d1 d2 d3)
    | _ => .short
  | .getVersion => .instr .getVersion
  | .fastRead =>
    match ops with
    | s :: e :: _ => if s = 133#8 ∧ e = 134#8 then .instr .bdToggle else .instr (.fastRead s e)
    | _ => .short
  | .pwdAuth =>
    match ops with
    | k0 :: k1 :: k2 :: k3 :: _ => .instr (.pwdAuth k0 k1 k2 k3)
    | _ => .short
  | .readSig =>
    match ops with
    | a :: _ => .instr (.readSig a)
    | _ => .short
  | .restartNfc => .instr .restartNfc
  | .keepalive1A => .instr .keepalive1A
  | .keepalive93 => .instr .keepalive93

/-- `decode` of R90: it depends on the frame alone. -/
def decode (f : List Byte) : Decoded :=
  match f with
  | [] => .short
  | c :: ops =>
    match codeOf c with
    | none => .unknown c
    | some k => decodeOperands k ops

/-- The frame of an instruction, exactly its required length, from the formats of R82 and the codes of R88. -/
def encode : Instr → List Byte
  | .read p => [0x30#8, p]
  | .write p d0 d1 d2 d3 => [0xA2#8, p, d0, d1, d2, d3]
  | .getVersion => [0x60#8]
  | .bdToggle => [0x3A#8, 0x85#8, 0x86#8]
  | .fastRead s e => [0x3A#8, s, e]
  | .pwdAuth k0 k1 k2 k3 => [0x1B#8, k0, k1, k2, k3]
  | .readSig a => [0x3C#8, a]
  | .restartNfc => [0x88#8]
  | .keepalive1A => [0x1A#8]
  | .keepalive93 => [0x93#8]

/-- The frame of a row of spec/opcode_table.json given as a number: byte `k` of the frame is bits `8k+7 .. 8k` of `w`, the
bits above `nbits` are 0, and the frame is laid out to the longest format, 6 bytes (R82); the bytes past the instruction's
own length are ignored by R85 (log 13). -/
def frameOfWord (nbits w : Nat) : List Byte :=
  (List.range (max 6 (nbits / 8))).map fun k => BitVec.ofNat 8 ((w % 2 ^ nbits) >>> (8 * k))

/-- The instruction the decoder reads from a row of the table (host interface). -/
def decodeTableWord (nbits w : Nat) : Option Instr :=
  match decode (frameOfWord nbits w) with
  | .instr i => some i
  | .short => none
  | .unknown _ => none

end Sys2Proof
end

