-- ==== Sys2Proof/Config.lean ====
section
/-! DEFINITION. What an implementation fixes: the 18 parameters of spec/00_scope.md R8, their types, and the three values
the spec leaves OPEN. The defaults of the others stand in Machine/Defaults.lean. -/

namespace Sys2Proof.Config

/-- `READ_TAIL_POLICY` (R131, D6): what a read gives for an offset of 572 or more. -/
inductive ReadTailPolicy
  | zeroFill
  | truncate
  | wrap
  deriving DecidableEq, Repr

/-- `PWD_READ_POLICY` (R130, D7). -/
inductive PwdReadPolicy
  | mask
  | nakStart
  deriving DecidableEq, Repr

/-- `PAGE2_OR_SCOPE` (R154, D10). -/
inductive Page2OrScope
  | lockBytesOnly
  | allFour
  deriving DecidableEq, Repr

/-- `DYNLOCK_DECODE` (R113, D12). -/
inductive DynlockDecode
  | perBit
  | allWhenUnauth
  | bit0GatesAll
  deriving DecidableEq, Repr

/-- `STATIC_LOCK_MAP` (R111, D13). -/
inductive StaticLockMap
  | doc
  | ntagStd
  deriving DecidableEq, Repr

/-- `RESTART_DIRTY_POLICY` (R175, D21). -/
inductive RestartDirtyPolicy
  | keep
  | persist
  deriving DecidableEq, Repr

/-- `KEEPALIVE_RESP` (R178, D22). -/
inductive KeepaliveResp
  | emptyFrame
  | noSend
  deriving DecidableEq, Repr

/-- `SHORT_FRAME_POLICY` (R86, D2). -/
inductive ShortFramePolicy
  | nak
  | noSend
  deriving DecidableEq, Repr

/-- A page number as a frame byte can carry it, 0 to 255: the range R136 gives the two READ ceilings. -/
abbrev PageNumber := Fin 256

/-- A BACKDOOR ceiling of FAST_READ (R136) or WRITE (R152): a page from 134 to 142. -/
abbrev BackdoorCeil := { n : Nat // 134 ≤ n ∧ n ≤ 142 }

/-- The parameters of R8, one field each. They are fixed for the machine: no step writes them (log 1). -/
structure Params where
  /-- `READ_CEIL_NORMAL` (D5). -/
  readCeilNormal : PageNumber
  /-- `READ_CEIL_BACKDOOR` (D5). -/
  readCeilBackdoor : PageNumber
  /-- `READ_TAIL_POLICY` (D6). -/
  readTailPolicy : ReadTailPolicy
  /-- `PWD_READ_POLICY` (D7). -/
  pwdReadPolicy : PwdReadPolicy
  /-- `FASTREAD_CEIL_BACKDOOR` (D8). -/
  fastReadCeilBackdoor : BackdoorCeil
  /-- `WRITE_CEIL_BACKDOOR` (D9). -/
  writeCeilBackdoor : BackdoorCeil
  /-- `PAGE2_OR_SCOPE` (D10). -/
  page2OrScope : Page2OrScope
  /-- `BACKDOOR_RAW_CONFIG_WRITE` (D11). -/
  backdoorRawConfigWrite : Bool
  /-- `DYNLOCK_DECODE` (D12). -/
  dynlockDecode : DynlockDecode
  /-- `STATIC_LOCK_MAP` (D13). -/
  staticLockMap : StaticLockMap
  /-- `PACK_OFFSET` (D14): an image offset (R9; log 5). -/
  packOffset : Fin 572
  /-- `PWD_FAIL_RESP` (D15, OPEN). -/
  pwdFailResp : List Byte
  /-- `VERSION_BYTES` (D17): 8 bytes. -/
  versionBytes : Vector Byte 8
  /-- `BD_UNLOCK_SIG` (D18, OPEN): 4 bytes. -/
  bdUnlockSig : Vector Byte 4
  /-- `BD_DEAUTH_SIG` (D18, OPEN): a byte string, its length not given. -/
  bdDeauthSig : List Byte
  /-- `RESTART_DIRTY_POLICY` (D21). -/
  restartDirtyPolicy : RestartDirtyPolicy
  /-- `KEEPALIVE_RESP` (D22). -/
  keepaliveResp : KeepaliveResp
  /-- `SHORT_FRAME_POLICY` (D2). -/
  shortFramePolicy : ShortFramePolicy
  deriving DecidableEq, Repr

/-- The unstated "fixed failure code" of PWD_AUTH (R167, D15 OPEN). DESIGN CHOICE, log 2: opaque, so no proof can see it. -/
opaque openPwdFailResp : List Byte

/-- The unstated "unlocked" signature, 4 bytes (R171, D18 OPEN). DESIGN CHOICE, log 2: opaque. -/
opaque openBdUnlockSig : Vector Byte 4

/-- The unstated "deauth" signature (R172, D18 OPEN). DESIGN CHOICE, log 2: opaque. -/
opaque openBdDeauthSig : List Byte

end Sys2Proof.Config
end

