-- ==== Sys2Proof/Machine/Defaults.lean ====
section
/-! DEFINITION. The parameters of a machine right after reset: the defaults of spec/00_scope.md R8 (log 3), and the opaque
constants for the three parameters R8 leaves OPEN (log 2). -/

namespace Sys2Proof.Machine
open Sys2Proof.Config

/-- `VERSION_BYTES` of R8. PRESUMED, log 3: the spec takes it from general knowledge (G1). -/
def defaultVersionBytes : Vector Byte 8 :=
  #v[0x00#8, 0x04#8, 0x04#8, 0x02#8, 0x01#8, 0x00#8, 0x11#8, 0x03#8]

/-- The default column of R8. -/
def defaultParams : Params where
  readCeilNormal := 134
  readCeilBackdoor := 142
  readTailPolicy := .zeroFill
  pwdReadPolicy := .mask
  fastReadCeilBackdoor := ⟨134, by decide⟩
  writeCeilBackdoor := ⟨142, by decide⟩
  page2OrScope := .lockBytesOnly
  backdoorRawConfigWrite := true
  dynlockDecode := .perBit
  staticLockMap := .doc
  packOffset := 536
  pwdFailResp := openPwdFailResp
  versionBytes := defaultVersionBytes
  bdUnlockSig := openBdUnlockSig
  bdDeauthSig := openBdDeauthSig
  restartDirtyPolicy := .keep
  keepaliveResp := .emptyFrame
  shortFramePolicy := .nak

end Sys2Proof.Machine
end

