-- ==== Sys2Proof/Machine/Layout.lean ====
section
/-! DEFINITION. The sizes and offsets the spec fixes (spec/00_scope.md R7; spec/10_state.md R35). -/

namespace Sys2Proof.Machine

/-- `IMG_BYTES` (R7): image offsets are 0 to 571. -/
@[simp] abbrev imgBytes : Nat := 572
/-- `N_PAGES` (R7): pages are 0 to 142. -/
@[simp] abbrev nPages : Nat := 143
/-- The image's last page (R7, R34). -/
@[simp] abbrev lastPage : Nat := 142
/-- BCC0 (R35, R116). -/
@[simp] abbrev bcc0Offset : Nat := 3
/-- BCC1 (R35, R116). -/
@[simp] abbrev bcc1Offset : Nat := 8
/-- Static lock byte 0 (R35, R111). -/
@[simp] abbrev staticLock0Offset : Nat := 10
/-- Static lock byte 1 (R35, R111). -/
@[simp] abbrev staticLock1Offset : Nat := 11
/-- The capability container, page 3 (R35, R155). -/
@[simp] abbrev ccOffset : Nat := 12
/-- The dynamic lock byte (R35, R113). -/
@[simp] abbrev dynLockOffset : Nat := 520
/-- The password PWD, 4 bytes (R35, R166). -/
@[simp] abbrev pwdOffset : Nat := 532
/-- The signature, 32 bytes (R35, R140). -/
@[simp] abbrev sigOffset : Nat := 540
/-- The signature's length (R7, R140). -/
@[simp] abbrev sigBytes : Nat := 32
/-- The ceiling of WRITE and FAST_READ outside BACKDOOR (R7, R68). -/
@[simp] abbrev ceilNormal : Nat := 134
/-- The NAK byte (R93). -/
@[simp] abbrev nakByte : Byte := 0x00#8
/-- The ACK byte (R93). -/
@[simp] abbrev ackByte : Byte := 0x0A#8
/-- The constant of BCC0 (R116). -/
@[simp] abbrev bcc0Constant : Byte := 0x88#8

end Sys2Proof.Machine
end

