-- ==== Sys2Proof/Machine/Memory.lean ====
section
/-! DEFINITION. The Tag Image as a list of (offset, byte) pairs in one canonical form, and its named operations
(spec/10_state.md R34; spec/20_memory.md R60 to R65). -/

namespace Sys2Proof.Machine

/-- The Tag Image: the offsets whose byte differs from `unlistedByte`, strictly rising. -/
abbrev Memory := List Host.Cell

/-- What an offset that the list does not name reads as. DESIGN CHOICE, log 11: the spec gives the block no image of its
own (R34); after the first HOST_LOAD every one of the 572 bytes is the host's. -/
@[simp] abbrev unlistedByte : Byte := 0x00#8

/-- The canonical form from offset `lo` on: offsets rise strictly, lie in the image, and no entry is `unlistedByte`. -/
def Memory.wfFrom (lo : Nat) : Memory → Bool
  | [] => true
  | (a, b) :: rest => decide (lo ≤ a) && decide (a < imgBytes) && (b != unlistedByte) && Memory.wfFrom (a + 1) rest

/-- The canonical form: equal images are equal lists. -/
def Memory.wf (m : Memory) : Bool := Memory.wfFrom 0 m

/-- `IMG[a]` of R11. -/
def Memory.read : Memory → Nat → Byte
  | [], _ => unlistedByte
  | (k, b) :: rest, a => if k = a then b else Memory.read rest a

/-- The list without any entry for offset `a`. -/
def Memory.erase : Memory → Nat → Memory
  | [], _ => []
  | (k, b) :: rest, a => if k = a then Memory.erase rest a else (k, b) :: Memory.erase rest a

/-- The list with an entry put before the first higher offset. -/
def Memory.insert : Memory → Nat → Byte → Memory
  | [], a, b => [(a, b)]
  | (k, c) :: rest, a, b => if a < k then (a, b) :: (k, c) :: rest else (k, c) :: Memory.insert rest a b

/-- `IMG[a] <- b`: writing what an unlisted offset reads as removes the entry. -/
def Memory.write (m : Memory) (a : Nat) (b : Byte) : Memory :=
  if b = unlistedByte then Memory.erase m a else Memory.insert (Memory.erase m a) a b

/-- `MemWrite(a, n, v)` of R11, `n` the length of `v`: bytes in ascending offset order (R62). -/
def Memory.writeBytes (m : Memory) (a : Nat) : List Byte → Memory
  | [] => m
  | b :: rest => Memory.writeBytes (Memory.write m a b) (a + 1) rest

/-- `IMG[a+i] <- IMG[a+i] | v[i]`: the OR of a WRITE to page 2 or 3 (R154, R155). -/
def Memory.orBytes (m : Memory) (a : Nat) : List Byte → Memory
  | [] => m
  | b :: rest => Memory.orBytes (Memory.write m a (Memory.read m a ||| b)) (a + 1) rest

/-- The image whose bytes from offset `a` on are the given ones. -/
def Memory.ofBytesFrom (a : Nat) : List Byte → Memory
  | [] => []
  | b :: rest => if b = unlistedByte then Memory.ofBytesFrom (a + 1) rest else (a, b) :: Memory.ofBytesFrom (a + 1) rest

/-- The image of the 572 bytes a HOST_LOAD carries (R196). -/
def Memory.ofImage (img : Vector Byte 572) : Memory := Memory.ofBytesFrom 0 img.toList

/-- `REPAIR` (R116): BCC0 and BCC1 from the UID bytes, no other byte. -/
def Memory.repair (m : Memory) : Memory :=
  Memory.write
    (Memory.write m bcc0Offset (Memory.read m 0 ^^^ Memory.read m 1 ^^^ Memory.read m 2 ^^^ bcc0Constant))
    bcc1Offset (Memory.read m 4 ^^^ Memory.read m 5 ^^^ Memory.read m 6 ^^^ Memory.read m 7)

end Sys2Proof.Machine
end

