-- ==== Sys2Proof/Machine/Locks.lean ====
section
/-! DEFINITION. The lock engine LOCKS, a pure function of lock bytes, `auth` and two parameters
(spec/40_lock_engine.md R110 to R115). -/

namespace Sys2Proof.Machine
open Sys2Proof.Config

/-- The bits 0 to 7 of a byte. -/
def byteBits : List Nat := List.range 8

/-- Pages locked by static lock byte 1, image byte 11: bit `b` locks page `8 + b` (R111). -/
def staticPages1 (b11 : Byte) : List Nat :=
  (byteBits.filter fun b => b11.getLsbD b).map fun b => 8 + b

/-- Pages locked by static lock byte 0, image byte 10: bit `b ≥ 4` locks page `4 + b` (DOC) or page `b` (NTAG_STD); bits 0
to 3 lock nothing (R111). -/
def staticPages0 (slm : StaticLockMap) (b10 : Byte) : List Nat :=
  (byteBits.filter fun b => decide (4 ≤ b) && b10.getLsbD b).map fun b =>
    match slm with
    | .doc => 4 + b
    | .ntagStd => b

/-- `DYNBIT(x, b)` (R113). -/
def dynBit (dd : DynlockDecode) (x : Byte) (b : Nat) : Bool :=
  match dd with
  | .perBit => x.getLsbD b
  | .allWhenUnauth => true
  | .bit0GatesAll => x.getLsbD 0

/-- `BLOCK(b)` (R114): 16 pages from `16 + 16b` for bits 0 to 6, pages 128 and 129 only for bit 7. -/
def dynBlock (b : Nat) : List Nat :=
  if b = 7 then [128, 129] else (List.range 16).map fun i => 16 + 16 * b + i

/-- Pages locked by the dynamic lock byte, only when not authenticated (R113). -/
def dynPages (dd : DynlockDecode) (b520 : Byte) (auth : Bool) : List Nat :=
  if auth then [] else (byteBits.filter fun b => dynBit dd b520 b).flatMap dynBlock

/-- The locked pages as the source's `set<page>`: the UID block, then the static and the dynamic locks (R110 to R114). -/
def lockedPages (slm : StaticLockMap) (dd : DynlockDecode) (b10 b11 b520 : Byte) (auth : Bool) : List Nat :=
  [0, 1] ++ staticPages1 b11 ++ staticPages0 slm b10 ++ dynPages dd b520 auth

/-- The 143-bit vector of a set of pages (R40). -/
def pageVector (pages : List Nat) : BitVec 143 :=
  pages.foldl (fun l p => l ||| (1#143 <<< p)) 0#143

/-- `LOCKS(img, auth)` (R110): it reads only `img[10]`, `img[11]`, `img[520]`, `auth` and two parameters. -/
def locks (ps : Params) (m : Memory) (auth : Bool) : BitVec 143 :=
  pageVector (lockedPages ps.staticLockMap ps.dynlockDecode (Memory.read m staticLock0Offset)
    (Memory.read m staticLock1Offset) (Memory.read m dynLockOffset) auth)

end Sys2Proof.Machine
end

