-- ==== Sys2Proof/Machine/State.lean ====
section
/-! DEFINITION. The state of the block (spec/10_state.md R30 to R46), its outputs (spec/00_scope.md R12), the reasons a step
can stop, and the machine right after reset (spec/70_reset_and_hazards.md R240 to R242). -/

namespace Sys2Proof.Machine

/-- The four kinds of output of R12. A snapshot is a copy of the whole image. -/
inductive Output
  /-- `respond(s)`: a byte string, possibly empty, for the proximity transport. -/
  | respond (s : List Byte)
  /-- `persist(snapshot)` for the persistence collaborator (R72). -/
  | persist (snapshot : Memory)
  /-- `nfc_restart()` for the proximity transport (R176). -/
  | nfcRestart
  /-- `host_data(snapshot)` in answer to HOST_READ (R198). -/
  | hostData (snapshot : Memory)
  deriving DecidableEq, Repr

/-- The state: the tuple (IMG, AUTH, BD, DIRTY, LP) of R30, and four fields of the model's own. -/
structure State where
  /-- The parameters of R8, written by no step (the model's own field, log 1). -/
  params : Config.Params
  /-- Whether the first HOST_LOAD has happened, R241 (the model's own field, log 9). -/
  imageLoaded : Bool
  /-- `IMG` (R34). -/
  img : Memory
  /-- `AUTH` (R37). -/
  auth : Bool
  /-- `BD` (R38). -/
  bd : Bool
  /-- `DIRTY` (R39). -/
  dirty : Bool
  /-- `LP` (R40): bit `p` is `LP[p]`. -/
  lp : BitVec 143
  /-- The events delivered and not yet taken, oldest first, R211 (the model's own field, log 6). -/
  inbox : List Event
  /-- The outputs emitted so far, oldest first, R12 (the model's own field, log 7). -/
  outbox : List Output
  deriving DecidableEq, Repr

/-- Why the machine stops. The block itself has no fault (R210). -/
inductive Fault
  /-- Raised by a step that takes any event but HOST_LOAD before the first HOST_LOAD: the block has no image and the event
  "has no step" (R241, U12 stuck). Safe: the machine only stops where the spec gives no step (log 9). -/
  | noImage
  deriving DecidableEq, Repr

/-- Why an instruction is turned away. -/
inductive Refusal
  /-- An instruction without a meaning yet, raised only by exec's arms (none is left). Safe: it only stops. -/
  | notModelled (mnemonic : String)
  deriving DecidableEq, Repr

/-- The machine right after reset: it waits for the host's first HOST_LOAD, which the spec calls the block's reset (R240,
R241; log 9). AUTH, BD and DIRTY have their reset value 0 (R37 to R39); LP is `LOCKS(IMG, 0)` (R40) of memory with nothing
listed (log 10). -/
def State.reset : State where
  params := defaultParams
  imageLoaded := false
  img := []
  auth := false
  bd := false
  dirty := false
  lp := locks defaultParams [] false
  inbox := []
  outbox := []

end Sys2Proof.Machine
end

