-- ==== Sys2Proof/Machine/Flags.lean ====
section
/-! DEFINITION. The status bits and the mode derived from them. The block has no condition codes (spec/10_state.md R36, R42;
spec/60_exceptions.md R216). -/

namespace Sys2Proof.Machine

/-- The three modes of R36. -/
inductive Mode
  | locked
  | authenticated
  | backdoor
  deriving DecidableEq, Repr

/-- `MODE` of R36: BACKDOOR if `BD = 1`, else AUTHENTICATED if `AUTH = 1`, else LOCKED. -/
def modeOf (s : State) : Mode :=
  if s.bd then .backdoor else if s.auth then .authenticated else .locked

/-- `DIRTY <- v`. -/
def setDirty (v : Bool) (s : State) : State := { s with dirty := v }

/-- `BD <- v`. -/
def setBackdoor (v : Bool) (s : State) : State := { s with bd := v }

/-- `AUTH <- v`. -/
def setAuth (v : Bool) (s : State) : State := { s with auth := v }

end Sys2Proof.Machine
end

