-- ==== Sys2Proof/Machine/Operands.lean ====
section
/-! DEFINITION. Page operands, ceilings, masking and reads of the image (spec/20_memory.md R61, R68; spec/30_encoding.md R84;
spec/41_read_commands.md R131, R132). -/

namespace Sys2Proof.Machine
open Sys2Proof.Config

/-- A page operand as the natural number 0 to 255, zero-extended (R84). -/
def pageNum (b : Byte) : Nat := b.toNat

/-- The image offset of a page's first byte (R61). -/
def pageOffset (p : Nat) : Nat := 4 * p

/-- READ's ceiling (R130): `READ_CEIL_BACKDOOR` in BACKDOOR, else `READ_CEIL_NORMAL`; but a page above 142 fails the check
whatever the parameter (R84; R130, "`p` from 143 to 255 is NAK in every mode"; log 16). -/
def readCeil (s : State) : Nat :=
  min (if s.bd then s.params.readCeilBackdoor.val else s.params.readCeilNormal.val) lastPage

/-- FAST_READ's ceiling (R135): `FASTREAD_CEIL_BACKDOOR` in BACKDOOR, else 134. -/
def fastReadCeil (s : State) : Nat :=
  if s.bd then s.params.fastReadCeilBackdoor.val else ceilNormal

/-- WRITE's ceiling (R150, R152): `WRITE_CEIL_BACKDOOR` in BACKDOOR, else 134. -/
def writeCeil (s : State) : Nat :=
  if s.bd then s.params.writeCeilBackdoor.val else ceilNormal

/-- Pages 133 and 134, the PWD and PACK pages (R132). -/
def isPwdPage (q : Nat) : Bool := q == 133 || q == 134

/-- Whether page `q` reads as zeros: a PWD page outside BACKDOOR (R132). -/
def isMasked (s : State) (q : Nat) : Bool := !s.bd && isPwdPage q

/-- The byte string read at offset `a`: `IMG[a]`, or what READ_TAIL_POLICY gives from offset 572 on (R11, R131). TRUNCATE
gives no byte there; as a window's offsets rise, that ends the response at offset 571 (log 17). -/
def readByte (ps : Params) (m : Memory) (a : Nat) : List Byte :=
  if a < imgBytes then [Memory.read m a]
  else
    match ps.readTailPolicy with
    | .zeroFill => [0x00#8]
    | .truncate => []
    | .wrap => [Memory.read m (a - imgBytes)]

/-- `MemRead(a, n)` (R11), in ascending offset order (R62). -/
def memRead (ps : Params) (m : Memory) (a n : Nat) : List Byte :=
  (List.range n).flatMap fun i => readByte ps m (a + i)

/-- `PAGE(q)` (R11). -/
def pageBytes (ps : Params) (m : Memory) (q : Nat) : List Byte := memRead ps m (pageOffset q) 4

/-- One byte of a READ window (R130): zero if its page is masked, else as stored or as the tail policy gives. -/
def windowByte (s : State) (a : Nat) : List Byte :=
  if isMasked s (a / 4) then [0x00#8] else readByte s.params s.img a

/-- READ's 16-byte window from page `p` (R130). -/
def readWindow (s : State) (p : Nat) : List Byte :=
  (List.range 16).flatMap fun i => windowByte s (pageOffset p + i)

/-- One page of a FAST_READ (R135): `zeros(4)` if masked, else `PAGE(q)`. -/
def fastReadPage (s : State) (q : Nat) : List Byte :=
  if isMasked s q then List.replicate 4 0x00#8 else pageBytes s.params s.img q

/-- FAST_READ's range `first..last`, inclusive (R135). -/
def fastReadRange (s : State) (first last : Nat) : List Byte :=
  (List.range (last + 1 - first)).flatMap fun i => fastReadPage s (first + i)

/-- `IMG[532..535]`, the stored password (R166). -/
def storedPassword (s : State) : List Byte := memRead s.params s.img pwdOffset 4

end Sys2Proof.Machine
end

