-- ==== Sys2Proof/Machine/Ops.lean ====
section
/-! DEFINITION. The named operations every meaning is built from: outputs, rejections (which stand where other machines take
exceptions, spec/60_exceptions.md R210, R214), lock recompute, INIT and image load (spec/40_lock_engine.md R110 to R119). -/

namespace Sys2Proof.Machine

/-- One output, after those already emitted (R12). -/
def emit (o : Output) (s : State) : State := { s with outbox := s.outbox ++ [o] }

/-- `respond(s)` (R12). -/
def respond (bytes : List Byte) (s : State) : State := emit (.respond bytes) s

/-- `NAK`: the single byte 0x00 (R93). -/
def nak (s : State) : State := respond [nakByte] s

/-- `ACK`: the single byte 0x0A (R93). -/
def ack (s : State) : State := respond [ackByte] s

/-- `persist(IMG)`: a copy of the image as it stands (R72). -/
def persistImage (s : State) : State := emit (.persist s.img) s

/-- The seven rejections of R210. -/
inductive Rejection
  | short
  | unknown
  | range
  | pwdPage
  | order
  | locked
  | authFail
  deriving DecidableEq, Repr

/-- The response of a rejection, if any (the response column of R210). -/
def rejectionResponse (ps : Config.Params) : Rejection → Option (List Byte)
  | .short =>
    match ps.shortFramePolicy with
    | .nak => some [nakByte]
    | .noSend => none
  | .unknown => some [nakByte]
  | .range => some [nakByte]
  | .pwdPage => some [nakByte]
  | .order => some [nakByte]
  | .locked => some [nakByte]
  | .authFail => some ps.pwdFailResp

/-- A rejection: its response is the whole effect; no state is saved, no mode changes, control goes nowhere (R210, R214). -/
def reject (r : Rejection) (s : State) : State :=
  match rejectionResponse s.params r with
  | some bytes => respond bytes s
  | none => s

/-- `LP <- LOCKS(IMG, AUTH)` (R41). -/
def recomputeLocks (s : State) : State := { s with lp := locks s.params s.img s.auth }

/-- `REPAIR()` (R116). -/
def repairImage (s : State) : State := { s with img := Memory.repair s.img }

/-- `INIT()` (R117): REPAIR, `AUTH <- 0`, `BD <- 0`, `LP <- LOCKS(IMG, 0)`. It does not write DIRTY and emits nothing. -/
def init (s : State) : State := recomputeLocks (setBackdoor false (setAuth false (repairImage s)))

/-- `HOST_LOAD` of an image (R196): `IMG <- img`, INIT, `DIRTY <- 0`. From here on the block has an image (R241). -/
def loadImage (m : Memory) (s : State) : State :=
  setDirty false (init { s with img := m, imageLoaded := true })

end Sys2Proof.Machine
end

