-- ==== Sys2Proof/Machine/Read.lean ====
section
/-! DEFINITION. The read commands READ, FAST_READ, READ_SIG and GET_VERSION (spec/41_read_commands.md R130 to R142). -/

namespace Sys2Proof.Machine
open Sys2Proof.Config

/-- READ (R130). -/
def execRead (p : Byte) (s : State) : Host.Outcome State Fault Refusal :=
  if pageNum p > readCeil s then .next (reject .range s)
  else if !s.bd && s.params.pwdReadPolicy == .nakStart && isPwdPage (pageNum p) then .next (reject .pwdPage s)
  else .next (respond (readWindow s (pageNum p)) s)

/-- FAST_READ (R135); the checks in the order of R212 (log 18). -/
def execFastRead (first last : Byte) (s : State) : Host.Outcome State Fault Refusal :=
  if pageNum last > fastReadCeil s then .next (reject .range s)
  else if pageNum first > pageNum last then .next (reject .order s)
  else .next (respond (fastReadRange s (pageNum first) (pageNum last)) s)

/-- READ_SIG (R140): the argument byte is read by no rule. -/
def execReadSig (_a : Byte) (s : State) : Host.Outcome State Fault Refusal :=
  .next (respond (memRead s.params s.img sigOffset sigBytes) s)

/-- GET_VERSION (R142). -/
def execGetVersion (s : State) : Host.Outcome State Fault Refusal :=
  .next (respond s.params.versionBytes.toList s)

end Sys2Proof.Machine
end

