-- ==== Sys2Proof/Machine/Session.lean ====
section
/-! DEFINITION. The session commands PWD_AUTH, BD_TOGGLE, RESTART_NFC, KEEPALIVE_1A and KEEPALIVE_93
(spec/43_session_commands.md R165 to R179). -/

namespace Sys2Proof.Machine
open Sys2Proof.Config

/-- PWD_AUTH (R165): on a match `AUTH <- 1`, LP recomputed, PACK returned (R166); on a mismatch AUTH_FAIL (R167). -/
def execPwdAuth (k0 k1 k2 k3 : Byte) (s : State) : Host.Outcome State Fault Refusal :=
  if [k0, k1, k2, k3] = storedPassword s then
    .next (respond (memRead s.params s.img s.params.packOffset.val 2) (recomputeLocks (setAuth true s)))
  else .next (reject .authFail s)

/-- BD_OPEN (R171). -/
def backdoorOpen (s : State) : State := respond s.params.bdUnlockSig.toList (setBackdoor true s)

/-- BD_CLOSE (R172): the response, INIT, `DIRTY <- 0`, then `persist` of the repaired image. -/
def backdoorClose (s : State) : State := persistImage (setDirty false (init (respond s.params.bdDeauthSig s)))

/-- BD_TOGGLE (R170). -/
def execBdToggle (s : State) : Host.Outcome State Fault Refusal :=
  if s.bd then .next (backdoorClose s) else .next (backdoorOpen s)

/-- The PERSIST arm of RESTART_NFC (R175, `RESTART_DIRTY_POLICY`). -/
def persistOnRestart (s : State) : State :=
  match s.params.restartDirtyPolicy with
  | .keep => s
  | .persist => if s.dirty then setDirty false (persistImage s) else s

/-- RESTART_NFC (R175, R176): INIT, the persist policy, `nfc_restart()`; no response frame. -/
def execRestartNfc (s : State) : Host.Outcome State Fault Refusal :=
  .next (emit .nfcRestart (persistOnRestart (init s)))

/-- A keep-alive's acknowledgement (R178, R179, `KEEPALIVE_RESP`). -/
def keepalive (s : State) : State :=
  match s.params.keepaliveResp with
  | .emptyFrame => respond [] s
  | .noSend => s

/-- KEEPALIVE_1A (R178). -/
def execKeepalive1A (s : State) : Host.Outcome State Fault Refusal := .next (keepalive s)

/-- KEEPALIVE_93 (R179). -/
def execKeepalive93 (s : State) : Host.Outcome State Fault Refusal := .next (keepalive s)

end Sys2Proof.Machine
end

