-- ==== Sys2Proof/Machine/Write.lean ====
section
/-! DEFINITION. The write command WRITE (spec/42_write_command.md R150 to R158). -/

namespace Sys2Proof.Machine
open Sys2Proof.Config

/-- Whether pages 2 and 3 are overwritten like any other page (R156). -/
def rawConfigWrite (s : State) : Bool := s.bd && s.params.backdoorRawConfigWrite

/-- The image after an accepted WRITE of page `p` (R154, R155, R157). -/
def writtenImage (p d0 d1 d2 d3 : Byte) (s : State) : Memory :=
  if pageNum p = 2 ∧ rawConfigWrite s = false then
    match s.params.page2OrScope with
    | .lockBytesOnly => Memory.orBytes s.img staticLock0Offset [d2, d3]
    | .allFour => Memory.orBytes s.img (pageOffset 2) [d0, d1, d2, d3]
  else if pageNum p = 3 ∧ rawConfigWrite s = false then Memory.orBytes s.img ccOffset [d0, d1, d2, d3]
  else Memory.writeBytes s.img (pageOffset (pageNum p)) [d0, d1, d2, d3]

/-- `LP[p] = 1` (R40). -/
def isLocked (s : State) (p : Nat) : Bool := s.lp.getLsbD p

/-- WRITE (R150): the ceiling (R152), the lock check outside BACKDOOR (R153), then the store, `DIRTY <- 1` and ACK (R151).
It never recomputes LP. -/
def execWrite (p d0 d1 d2 d3 : Byte) (s : State) : Host.Outcome State Fault Refusal :=
  if pageNum p > writeCeil s then .next (reject .range s)
  else if !s.bd && isLocked s (pageNum p) then .next (reject .locked s)
  else .next (ack (setDirty true { s with img := writtenImage p d0 d1 d2 d3 s }))

end Sys2Proof.Machine
end

