-- ==== Sys2Proof/Machine/Dispatch.lean ====
section
/-! DEFINITION. The one dispatch function: each instruction to its meaning. -/

namespace Sys2Proof.Machine

def exec (i : Instr) (s : State) : Host.Outcome State Fault Refusal :=
  match i with
  | .read p => Sys2Proof.Machine.execRead p s
  | .write p d0 d1 d2 d3 => Sys2Proof.Machine.execWrite p d0 d1 d2 d3 s
  | .getVersion => Sys2Proof.Machine.execGetVersion s
  | .bdToggle => Sys2Proof.Machine.execBdToggle s
  | .fastRead first last => Sys2Proof.Machine.execFastRead first last s
  | .pwdAuth k0 k1 k2 k3 => Sys2Proof.Machine.execPwdAuth k0 k1 k2 k3 s
  | .readSig a => Sys2Proof.Machine.execReadSig a s
  | .restartNfc => Sys2Proof.Machine.execRestartNfc s
  | .keepalive1A => Sys2Proof.Machine.execKeepalive1A s
  | .keepalive93 => Sys2Proof.Machine.execKeepalive93 s

end Sys2Proof.Machine
end

