-- ==== Sys2Proof/Machine/Events.lean ====
section
/-! DEFINITION. The handlers of the five events (spec/60_exceptions.md R211; spec/44_events.md R190 to R199), and the events a
block without an image admits (spec/70_reset_and_hazards.md R241). -/

namespace Sys2Proof.Machine

/-- FRAME(f) (R211, R13): decode the frame, then perform the command's rule, SHORT's (R86, R87) or UNKNOWN's (R91). It is
not gated by field activation (R191). -/
def handleFrame (f : List Byte) (s : State) : Host.Outcome State Fault Refusal :=
  match decode f with
  | .instr i => exec i s
  | .short => .next (reject .short s)
  | .unknown _ => .next (reject .unknown s)

/-- ACTIVATE (R190): no state change, no output. -/
def activate (s : State) : State := s

/-- The persist of DEACTIVATE (R192): only when DIRTY, which it clears. -/
def persistIfDirty (s : State) : State := if s.dirty then setDirty false (persistImage s) else s

/-- DEACTIVATE (R192): `AUTH <- 0`, `BD <- 0`, LP recomputed, persist if dirty; no response, no REPAIR. -/
def deactivate (s : State) : State := persistIfDirty (recomputeLocks (setBackdoor false (setAuth false s)))

/-- HOST_LOAD(img) (R196). -/
def hostLoad (img : Vector Byte 572) (s : State) : State := loadImage (Memory.ofImage img) s

/-- HOST_READ (R198): `host_data(IMG)` is the only effect. -/
def hostRead (s : State) : State := emit (.hostData s.img) s

/-- The handler of each event (R211). Before the first HOST_LOAD every other event has no step (R241): it stops by name. -/
def handleEvent (e : Event) (s : State) : Host.Outcome State Fault Refusal :=
  match e with
  | .hostLoad img => .next (hostLoad img s)
  | .frame f => if s.imageLoaded then handleFrame f s else .fault .noImage
  | .activate => if s.imageLoaded then .next (activate s) else .fault .noImage
  | .deactivate => if s.imageLoaded then .next (deactivate s) else .fault .noImage
  | .hostRead => if s.imageLoaded then .next (hostRead s) else .fault .noImage

/-- Take the oldest event and handle it; with none, the block waits (R240; log 8). -/
def takeEvent (s : State) : Host.Outcome State Fault Refusal :=
  match s.inbox with
  | [] => .next s
  | e :: rest => handleEvent e { s with inbox := rest }

/-- A machine that admits frames: itself, or, if no image is loaded yet, the machine after a HOST_LOAD of the image whose
572 bytes are 0x00 (log 12). -/
def withSomeImage (s : State) : State := if s.imageLoaded then s else loadImage [] s

/-- A frame put before every waiting event (log 12). -/
def withNextFrame (f : List Byte) (s : State) : State :=
  { withSomeImage s with inbox := .frame f :: s.inbox }

end Sys2Proof.Machine
end

