-- ==== Sys2Proof/Machine/Step.lean ====
section
/-! DEFINITION. The step (spec/00_scope.md R13): one event, to completion. And the placing of one instruction where the next
step takes its event (host interface, log 12). -/

namespace Sys2Proof.Machine

/-- One step: the oldest event that waits, handled atomically (R13, R65, R70). -/
def step (s : State) : Host.Outcome State Fault Refusal := takeEvent s

/-- `s` with the instruction of a table row as the next frame (log 12, log 13). -/
def State.withFetchWord (s : State) (nbits w : Nat) : State := withNextFrame (frameOfWord nbits w) s

end Sys2Proof.Machine
end

