-- ==== Sys2Proof/Safety.lean ====
section
/-! DEFINITION. What counts as a good state and a safe step, in the terms the statements use. -/

namespace Sys2Proof.Machine

/-- A step that does not stop: the spec's "nothing in this core is a fatal error" (spec/60_exceptions.md R210). -/
def SafeStep (s : State) : Prop := ∃ t, step s = .next t

/-- Whether an output's snapshot, if it has one, is in canonical form. -/
def Output.canonical : Output → Bool
  | .respond _ => true
  | .persist m => Memory.wf m
  | .nfcRestart => true
  | .hostData m => Memory.wf m

/-- Whether an output is a `respond` (spec/00_scope.md R12). -/
def Output.isRespond : Output → Bool
  | .respond _ => true
  | .persist _ => false
  | .nfcRestart => false
  | .hostData _ => false

/-- The image and every snapshot handed out are 572-byte images in canonical form. -/
def ImagesCanonical (s : State) : Prop :=
  Memory.wf s.img = true ∧ ∀ o ∈ s.outbox, Output.canonical o = true

/-- LP is what LOCKS gives for the present AUTH and some value of the three lock bytes: LP is a read model, never set
directly (spec/10_state.md R40, R41). The lock bytes may be older than the image's (R44). -/
def LocksInForce (s : State) : Prop :=
  ∃ b10 b11 b520 : Byte,
    s.lp = pageVector (lockedPages s.params.staticLockMap s.params.dynlockDecode b10 b11 b520 s.auth)

/-- Both checksums match the UID bytes (spec/10_state.md R45; spec/40_lock_engine.md R116). -/
def ChecksumsMatch (m : Memory) : Prop :=
  Memory.read m 3 = Memory.read m 0 ^^^ Memory.read m 1 ^^^ Memory.read m 2 ^^^ 0x88#8 ∧
  Memory.read m 8 = Memory.read m 4 ^^^ Memory.read m 5 ^^^ Memory.read m 6 ^^^ Memory.read m 7

/-- The password bytes of a frame equal `IMG[532..535]`, all four (spec/43_session_commands.md R166). -/
def PasswordMatches (m : Memory) (k0 k1 k2 k3 : Byte) : Prop :=
  k0 = Memory.read m 532 ∧ k1 = Memory.read m 533 ∧ k2 = Memory.read m 534 ∧ k3 = Memory.read m 535

/-- The step takes a command frame that decodes to `i`. -/
def TakesInstr (s : State) (i : Instr) : Prop :=
  ∃ f rest, s.inbox = .frame f :: rest ∧ decode f = .instr i

/-- The step takes the event `e`. -/
def TakesEvent (s : State) (e : Event) : Prop := ∃ rest, s.inbox = e :: rest

/-- The recompute points of spec/10_state.md R41, with the host's load, which is the INIT of a slot activation (R196). -/
def AtRecomputePoint (s : State) : Prop :=
  TakesEvent s .deactivate ∨ (∃ img, TakesEvent s (.hostLoad img)) ∨ TakesInstr s .restartNfc ∨
  (s.bd = true ∧ TakesInstr s .bdToggle) ∨
  ∃ k0 k1 k2 k3, TakesInstr s (.pwdAuth k0 k1 k2 k3) ∧ PasswordMatches s.img k0 k1 k2 k3

end Sys2Proof.Machine
end

