-- ==== Sys2Proof/Certificates/Slice0/Obligations.lean ====
section
/-! DEFINITION. The statements for the provers. A statement over every state holds for every value of the 18 parameters of
spec/00_scope.md R8, since they stand in the state (log 1); so a decision of spec/92_eei_decisions.md that only picks a
parameter's default is no premise of it. -/

open Sys2Proof Sys2Proof.Machine

/-! ## Encoding -/

/-- Every well-formed instruction is read back from its frame, whatever bytes follow it (R82, R85, R90; the layouts and the
trailing bytes are the spec's own decisions D1 and D3). -/
def Obligations.DecodeOfEncodeWithTrailingBytes : Prop :=
  ∀ (i : Instr) (rest : List Byte), i.wf = true → decode (encode i ++ rest) = .instr i

/-- Only frames that begin with an instruction's own encoding decode to it: no bit of a frame is dropped (R90;
the layouts and the trailing bytes are the spec's own decisions D1 and D3). -/
def Obligations.DecodedFramesBeginWithTheEncoding : Prop :=
  ∀ (f : List Byte) (i : Instr), decode f = .instr i → i.wf = true ∧ encode i <+: f

/-- R85, the spec's own decision D3: bytes past the required length have no effect. -/
def Obligations.LongFramesDecodeFromTheirRequiredBytes : Prop :=
  ∀ (k : Code) (ops : List Byte), requiredLength k ≤ (codeByte k :: ops).length →
    ∃ i, decode ((codeByte k :: ops).take (requiredLength k)) = .instr i ∧ decode (codeByte k :: ops) = .instr i

/-- R86 and R87, the spec's own decisions D2 and D4: too short a frame, the empty one too, is SHORT and only answered. -/
def Obligations.ShortFramesAreAnsweredByPolicy : Prop :=
  decode [] = .short ∧
  (∀ (k : Code) (ops : List Byte), (codeByte k :: ops).length < requiredLength k → decode (codeByte k :: ops) = .short) ∧
  ∀ (s : State) (f : List Byte) (rest : List Event),
    s.imageLoaded = true → s.inbox = .frame f :: rest → decode f = .short →
      step s = .next (match s.params.shortFramePolicy with
        | .nak => { s with inbox := rest, outbox := s.outbox ++ [.respond [0x00#8]] }
        | .noSend => { s with inbox := rest })

/-- R91: every code outside the nine of R88 is UNKNOWN and answered NAK with no state change. -/
def Obligations.UnknownCodesAreAnsweredNak : Prop :=
  ∀ (c : Byte) (ops : List Byte),
    c ∉ [0x30#8, 0xA2#8, 0x60#8, 0x3A#8, 0x1B#8, 0x3C#8, 0x88#8, 0x1A#8, 0x93#8] →
      decode (c :: ops) = .unknown c ∧
      ∀ (s : State) (rest : List Event), s.imageLoaded = true → s.inbox = .frame (c :: ops) :: rest →
        step s = .next { s with inbox := rest, outbox := s.outbox ++ [.respond [0x00#8]] }

/-- R89: the pair (133, 134) is BD_TOGGLE and never FAST_READ; every other pair is FAST_READ. -/
def Obligations.TogglePairIsNeverFastRead : Prop :=
  (∀ rest : List Byte, decode (0x3A#8 :: 133#8 :: 134#8 :: rest) = .instr .bdToggle) ∧
  ∀ (a b : Byte) (rest : List Byte), ¬(a = 133#8 ∧ b = 134#8) → decode (0x3A#8 :: a :: b :: rest) = .instr (.fastRead a b)

/-- A few frames written out from R82 and R88 (the layouts are the spec's own decision D1). -/
def Obligations.SampleFramesDecode : Prop :=
  decode [0x30#8, 0x04#8] = .instr (.read 4#8) ∧
  decode [0xA2#8, 0x04#8, 0xDE#8, 0xAD#8, 0xBE#8, 0xEF#8] = .instr (.write 4#8 0xDE#8 0xAD#8 0xBE#8 0xEF#8) ∧
  decode [0x1B#8, 0x11#8, 0x22#8, 0x33#8, 0x44#8] = .instr (.pwdAuth 0x11#8 0x22#8 0x33#8 0x44#8) ∧
  decode [0x93#8, 0x20#8] = .instr .keepalive93 ∧
  decode [0x3A#8, 0x85#8, 0x86#8] = .instr .bdToggle

/-! ## The step and the events -/

/-- R13 on a FRAME: the step performs the decoded instruction on the state whose inbox has lost that frame. -/
def Obligations.StepRunsTheDecodedInstr : Prop :=
  ∀ (s : State) (f : List Byte) (rest : List Event) (i : Instr),
    s.imageLoaded = true → s.inbox = .frame f :: rest → decode f = .instr i →
      step s = exec i { s with inbox := rest }

/-- The host's placing of a table row runs that row's instruction next. The model's convention, log 12 and log 13. -/
def Obligations.PlacedTableWordRunsNext : Prop :=
  ∀ (s : State) (nbits w : Nat) (i : Instr), decodeTableWord nbits w = some i →
    step (s.withFetchWord nbits w) = exec i { withSomeImage s with inbox := s.inbox } ∧
    (s.imageLoaded = true → withSomeImage s = s)

/-- With no event the block waits. The model's convention, log 8. -/
def Obligations.StepWithoutEventWaits : Prop :=
  ∀ s : State, s.inbox = [] → step s = .next s

/-- R241, the spec's own decision D29: before the first HOST_LOAD no other event has a step. -/
def Obligations.NoEventStepsBeforeTheFirstLoad : Prop :=
  ∀ (s : State) (e : Event) (rest : List Event), s.imageLoaded = false → s.inbox = e :: rest →
    (∀ img, e ≠ .hostLoad img) → step s = .fault .noImage

/-- What State.reset holds: AUTH, BD and DIRTY at their reset value 0 (R37 to R39, R240). That no image is listed and
that LP holds the UID block are the model's, log 9 and log 10. -/
def Obligations.ResetHoldsTheResetValues : Prop :=
  State.reset.auth = false ∧ State.reset.bd = false ∧ State.reset.dirty = false ∧ modeOf State.reset = .locked ∧
  State.reset.imageLoaded = false ∧ State.reset.img = [] ∧ State.reset.inbox = [] ∧ State.reset.outbox = [] ∧
  ∀ p, p < 143 → (State.reset.lp.getLsbD p = true ↔ p < 2)

/-- R190, the spec's own decision D24: ACTIVATE changes nothing and outputs nothing. -/
def Obligations.ActivateDoesNothing : Prop :=
  ∀ (s : State) (rest : List Event), s.imageLoaded = true → s.inbox = .activate :: rest →
    step s = .next { s with inbox := rest }

/-- R192: DEACTIVATE resets the session, recomputes LP and persists if dirty; no response, no REPAIR. -/
def Obligations.DeactivateResetsTheSession : Prop :=
  ∀ (s : State) (rest : List Event), s.imageLoaded = true → s.inbox = .deactivate :: rest →
    step s = .next { s with
      inbox := rest, auth := false, bd := false, dirty := false, lp := locks s.params s.img false,
      outbox := s.outbox ++ (if s.dirty then [.persist s.img] else []) }

/-- R196, the spec's own decision D26: HOST_LOAD installs the host's 572 bytes with BCC0 and BCC1 repaired, resets the
session and discards DIRTY, with no output. It is also the block's reset (R240). -/
def Obligations.HostLoadInstallsTheRepairedImage : Prop :=
  ∀ (s : State) (img : Vector Byte 572) (rest : List Event), s.inbox = .hostLoad img :: rest →
    ∃ t, step s = .next t ∧ t.imageLoaded = true ∧ t.auth = false ∧ t.bd = false ∧ t.dirty = false ∧
      t.lp = locks s.params t.img false ∧ t.params = s.params ∧ t.inbox = rest ∧ t.outbox = s.outbox ∧
      Memory.wf t.img = true ∧
      ∀ (a : Nat) (h : a < 572), Memory.read t.img a =
        if a = 3 then img[0] ^^^ img[1] ^^^ img[2] ^^^ 0x88#8
        else if a = 8 then img[4] ^^^ img[5] ^^^ img[6] ^^^ img[7]
        else img[a]

/-- R198, the spec's own decision D34: HOST_READ hands out a copy of the image and changes nothing. -/
def Obligations.HostReadHandsOutTheImage : Prop :=
  ∀ (s : State) (rest : List Event), s.imageLoaded = true → s.inbox = .hostRead :: rest →
    step s = .next { s with inbox := rest, outbox := s.outbox ++ [.hostData s.img] }

/-! ## The read commands -/

/-- The pseudocode of R130, every form: READ answers NAK or its 16-byte window, and changes nothing. That pages 133 and 134
read as zero wherever they fall in the window is the spec's own decision D7. A page from 143 to 255 is NAK in every mode
(R84, R130), also under a READ ceiling above 142, which R136 admits and R130's pseudocode alone would let pass: the model's
choice of rule, log 16 (DEDUCED). So is the tail of a window outside BACKDOOR under a READ_CEIL_NORMAL of 140 or more.
TRUNCATE as the omission of bytes is the model's reading, log 17. -/
def Obligations.ReadAnswersItsWindowOrNak : Prop :=
  ∀ (p : Byte) (s : State), ∃ bytes : List Byte,
    exec (.read p) s = .next { s with outbox := s.outbox ++ [.respond bytes] } ∧
    bytes =
      if 142 < p.toNat ∨ (if s.bd then s.params.readCeilBackdoor.val else s.params.readCeilNormal.val) < p.toNat ∨
          (s.bd = false ∧ s.params.pwdReadPolicy = .nakStart ∧ (p.toNat = 133 ∨ p.toNat = 134)) then [0x00#8]
      else (List.range 16).flatMap fun i =>
        if 572 ≤ 4 * p.toNat + i then
          (match s.params.readTailPolicy with
            | .zeroFill => [0x00#8]
            | .truncate => []
            | .wrap => [Memory.read s.img (4 * p.toNat + i - 572)])
        else if s.bd = false ∧ ((4 * p.toNat + i) / 4 = 133 ∨ (4 * p.toNat + i) / 4 = 134) then [0x00#8]
        else [Memory.read s.img (4 * p.toNat + i)]

/-- R84 (its operand layout the spec's own decision D1): a page operand above 142 is not reduced, it fails: READ, FAST_READ
and WRITE answer NAK and change nothing, in every mode and under every parameter (for READ ceilings above 142: log 16). -/
def Obligations.PagesBeyondTheImageAreNak : Prop :=
  ∀ s : State,
    (∀ p : Byte, 143 ≤ p.toNat → exec (.read p) s = .next { s with outbox := s.outbox ++ [.respond [0x00#8]] }) ∧
    (∀ a b : Byte, 143 ≤ a.toNat ∨ 143 ≤ b.toNat →
      exec (.fastRead a b) s = .next { s with outbox := s.outbox ++ [.respond [0x00#8]] }) ∧
    ∀ p d0 d1 d2 d3 : Byte, 143 ≤ p.toNat →
      exec (.write p d0 d1 d2 d3) s = .next { s with outbox := s.outbox ++ [.respond [0x00#8]] }

/-- READ of a window inside the image: 16 bytes, each as stored but for the PWD and PACK pages outside BACKDOOR, the
spec's own decision D7 (R130, R132). -/
def Obligations.ReadGivesTheStoredBytesButThePassword : Prop :=
  ∀ (p : Byte) (s : State), p.toNat ≤ readCeil s → p.toNat ≤ 139 →
    (s.bd = true ∨ s.params.pwdReadPolicy = .mask ∨ (p.toNat ≠ 133 ∧ p.toNat ≠ 134)) →
    ∃ bytes : List Byte, exec (.read p) s = .next { s with outbox := s.outbox ++ [.respond bytes] } ∧
      bytes.length = 16 ∧
      ∀ i, i < 16 → bytes[i]? =
        some (if s.bd = false ∧ 532 ≤ 4 * p.toNat + i ∧ 4 * p.toNat + i ≤ 539 then 0x00#8
          else Memory.read s.img (4 * p.toNat + i))

/-- R135, every form: FAST_READ answers NAK or its inclusive range of pages, and changes nothing. That it masks pages 133
and 134 outside BACKDOOR is the spec's own decision D7. -/
def Obligations.FastReadAnswersItsRangeOrNak : Prop :=
  ∀ (a b : Byte) (s : State), ¬(a = 133#8 ∧ b = 134#8) → ∃ bytes : List Byte,
    exec (.fastRead a b) s = .next { s with outbox := s.outbox ++ [.respond bytes] } ∧
    bytes =
      if b.toNat < a.toNat ∨ (if s.bd then s.params.fastReadCeilBackdoor.val else 134) < b.toNat then [0x00#8]
      else (List.range (b.toNat + 1 - a.toNat)).flatMap fun j =>
        if s.bd = false ∧ (a.toNat + j = 133 ∨ a.toNat + j = 134) then [0x00#8, 0x00#8, 0x00#8, 0x00#8]
        else [Memory.read s.img (4 * (a.toNat + j)), Memory.read s.img (4 * (a.toNat + j) + 1),
          Memory.read s.img (4 * (a.toNat + j) + 2), Memory.read s.img (4 * (a.toNat + j) + 3)]

/-- FAST_READ inside its ceiling: 4 bytes a page in ascending order, each as stored but for the PWD and PACK pages outside
BACKDOOR, the spec's own decision D7 (R62, R132, R135). -/
def Obligations.FastReadGivesTheStoredBytesButThePassword : Prop :=
  ∀ (a b : Byte) (s : State), ¬(a = 133#8 ∧ b = 134#8) → a.toNat ≤ b.toNat → b.toNat ≤ fastReadCeil s →
    ∃ bytes : List Byte, exec (.fastRead a b) s = .next { s with outbox := s.outbox ++ [.respond bytes] } ∧
      bytes.length = 4 * (b.toNat - a.toNat + 1) ∧
      ∀ i, i < 4 * (b.toNat - a.toNat + 1) → bytes[i]? =
        some (if s.bd = false ∧ 532 ≤ 4 * a.toNat + i ∧ 4 * a.toNat + i ≤ 539 then 0x00#8
          else Memory.read s.img (4 * a.toNat + i))

/-- R140: READ_SIG returns bytes 540 to 571 in every mode, whatever its argument byte (the argument is the spec's own decision
D23). -/
def Obligations.ReadSigGivesTheSignature : Prop :=
  ∀ (a : Byte) (s : State),
    exec (.readSig a) s =
      .next { s with outbox := s.outbox ++ [.respond ((List.range 32).map fun i => Memory.read s.img (540 + i))] }

/-- R142: GET_VERSION returns the 8 bytes VERSION_BYTES, whatever the mode and the image. -/
def Obligations.GetVersionGivesTheVersionBytes : Prop :=
  ∀ s : State, s.params.versionBytes.toList.length = 8 ∧
    exec .getVersion s = .next { s with outbox := s.outbox ++ [.respond s.params.versionBytes.toList] }

/-- READ, FAST_READ, READ_SIG and GET_VERSION change no state, and repeating one gives the same response (R66). -/
def Obligations.ReadCommandsAreIdempotent : Prop :=
  ∀ (i : Instr) (s : State), i.wf = true →
    ((∃ p, i = .read p) ∨ (∃ a b, i = .fastRead a b) ∨ (∃ a, i = .readSig a) ∨ i = .getVersion) →
    ∃ bytes : List Byte, ∀ earlier : List Output,
      exec i { s with outbox := earlier } = .next { s with outbox := earlier ++ [.respond bytes] }

/-- Outside BACKDOOR the four read commands do not depend on the PWD and PACK pages: two images that differ only there give
the same response (R132, R69; the masking is the spec's own decision D7). -/
def Obligations.PasswordPagesDoNotLeakThroughReads : Prop :=
  ∀ (i : Instr) (s : State) (m : Memory), s.bd = false → i.wf = true →
    ((∃ p, i = .read p) ∨ (∃ a b, i = .fastRead a b) ∨ (∃ a, i = .readSig a) ∨ i = .getVersion) →
    (∀ a, ¬(532 ≤ a ∧ a ≤ 539) → Memory.read m a = Memory.read s.img a) →
    ∃ bytes : List Byte,
      exec i s = .next { s with outbox := s.outbox ++ [.respond bytes] } ∧
      exec i { s with img := m } = .next { s with img := m, outbox := s.outbox ++ [.respond bytes] }

/-! ## WRITE -/

/-- R151, R154 to R157: an accepted WRITE, every form: the four bytes of its page, DIRTY and ACK; nothing else changes. -/
def Obligations.AcceptedWriteStoresItsPage : Prop :=
  ∀ (p d0 d1 d2 d3 : Byte) (s : State),
    p.toNat ≤ (if s.bd then s.params.writeCeilBackdoor.val else 134) →
    (s.bd = true ∨ s.lp.getLsbD p.toNat = false) →
    ∃ m : Memory,
      exec (.write p d0 d1 d2 d3) s =
        .next { s with img := m, dirty := true, outbox := s.outbox ++ [.respond [0x0A#8]] } ∧
      (∀ x, ¬(pageOffset (pageNum p) ≤ x ∧ x < pageOffset (pageNum p) + 4) → Memory.read m x = Memory.read s.img x) ∧
      ∀ i, i < 4 →
        let d := [d0, d1, d2, d3].getD i 0x00#8
        let old := Memory.read s.img (pageOffset (pageNum p) + i)
        Memory.read m (pageOffset (pageNum p) + i) =
          if s.bd = true ∧ s.params.backdoorRawConfigWrite = true then d
          else if p.toNat = 2 then
            (if s.params.page2OrScope = .lockBytesOnly ∧ i < 2 then old else old ||| d)
          else if p.toNat = 3 then old ||| d
          else d

/-- The rejections of R150: beyond the ceiling of R152 (any page from 143 in every mode), or a locked page outside BACKDOOR
(R153): NAK and no state change. -/
def Obligations.RejectedWriteIsNakAndChangesNothing : Prop :=
  ∀ (p d0 d1 d2 d3 : Byte) (s : State),
    (s.bd = false ∧ 134 < p.toNat) ∨ (s.bd = true ∧ s.params.writeCeilBackdoor.val < p.toNat) ∨ 143 ≤ p.toNat ∨
      (s.bd = false ∧ s.lp.getLsbD p.toNat = true) →
    exec (.write p d0 d1 d2 d3) s = .next { s with outbox := s.outbox ++ [.respond [0x00#8]] }

/-- In BACKDOOR a WRITE does not consult LP (R153): with any other LP it does the same. -/
def Obligations.BackdoorWriteIgnoresTheLocks : Prop :=
  ∀ (p d0 d1 d2 d3 : Byte) (s : State) (l : BitVec 143), s.bd = true →
    ∃ t, exec (.write p d0 d1 d2 d3) s = .next t ∧ exec (.write p d0 d1 d2 d3) { s with lp := l } = .next { t with lp := l }

/-! ## The session commands -/

/-- R166: a match of all four bytes sets AUTH, recomputes LP with it, which drops every dynamic lock and keeps the locks of
pages 0 to 15, and returns the two bytes of PACK; nothing else changes. Every PACK_OFFSET whose two bytes lie in the image is
meant; the last offset is PackAtTheLastOffset's. -/
def Obligations.PasswordMatchAuthenticates : Prop :=
  ∀ (k0 k1 k2 k3 : Byte) (s : State), PasswordMatches s.img k0 k1 k2 k3 → ∃ pack : List Byte,
    exec (.pwdAuth k0 k1 k2 k3) s =
      .next { s with auth := true, lp := locks s.params s.img true, outbox := s.outbox ++ [.respond pack] } ∧
    (∀ p, p < 143 → ((locks s.params s.img true).getLsbD p = true ↔
      p < 16 ∧ (locks s.params s.img false).getLsbD p = true)) ∧
    (s.params.packOffset.val ≤ 570 →
      pack = [Memory.read s.img s.params.packOffset.val, Memory.read s.img (s.params.packOffset.val + 1)])

/-- A PACK_OFFSET at the image's last byte: the PACK byte past the image follows READ_TAIL_POLICY. The model's reading of
R11, log 5. -/
def Obligations.PackAtTheLastOffset : Prop :=
  ∀ (k0 k1 k2 k3 : Byte) (s : State), PasswordMatches s.img k0 k1 k2 k3 → s.params.packOffset.val = 571 →
    exec (.pwdAuth k0 k1 k2 k3) s =
      .next { s with
        auth := true, lp := locks s.params s.img true,
        outbox := s.outbox ++ [.respond (Memory.read s.img 571 :: (match s.params.readTailPolicy with
          | .zeroFill => [0x00#8]
          | .truncate => []
          | .wrap => [Memory.read s.img 0]))] }

/-- R167, its state part the spec's own decision D15: a mismatch answers PWD_FAIL_RESP and changes no state. -/
def Obligations.PasswordMismatchChangesNothing : Prop :=
  ∀ (k0 k1 k2 k3 : Byte) (s : State), ¬PasswordMatches s.img k0 k1 k2 k3 →
    exec (.pwdAuth k0 k1 k2 k3) s = .next { s with outbox := s.outbox ++ [.respond s.params.pwdFailResp] }

/-- A password match lets WRITEs through that only byte 520 locked (R166, R113): after it, every page from 16 to 129
accepts a WRITE. -/
def Obligations.PasswordMatchUnlocksTheDynamicPages : Prop :=
  ∀ (k0 k1 k2 k3 p d0 d1 d2 d3 : Byte) (s : State), PasswordMatches s.img k0 k1 k2 k3 → 16 ≤ p.toNat → p.toNat ≤ 129 →
    ∃ t u, exec (.pwdAuth k0 k1 k2 k3) s = .next t ∧ exec (.write p d0 d1 d2 d3) t = .next u ∧
      u.outbox = t.outbox ++ [.respond [0x0A#8]] ∧ u.dirty = true ∧
      ∀ i, i < 4 → Memory.read u.img (4 * p.toNat + i) = [d0, d1, d2, d3].getD i 0x00#8

/-- R171: BD_OPEN sets BD, answers the 4 bytes BD_UNLOCK_SIG and changes nothing else. -/
def Obligations.ToggleOpensTheBackdoor : Prop :=
  ∀ s : State, s.bd = false → s.params.bdUnlockSig.toList.length = 4 ∧
    exec .bdToggle s = .next { s with bd := true, outbox := s.outbox ++ [.respond s.params.bdUnlockSig.toList] }

/-- R172, its order of effects and its persist the spec's own decisions D19 and D20: BD_CLOSE answers BD_DEAUTH_SIG,
re-initialises and persists the repaired image, dirty or not. -/
def Obligations.ToggleClosesTheBackdoor : Prop :=
  ∀ s : State, s.bd = true → ∃ m : Memory,
    exec .bdToggle s =
      .next { s with
        img := m, auth := false, bd := false, dirty := false, lp := locks s.params m false,
        outbox := s.outbox ++ [.respond s.params.bdDeauthSig, .persist m] } ∧
    ChecksumsMatch m ∧ ∀ x, x ≠ 3 → x ≠ 8 → Memory.read m x = Memory.read s.img x

/-- R175 and R176, the spec's own decision D21: RESTART_NFC re-initialises, keeps or persists DIRTY by its policy, sends no
response and asks for the restart. -/
def Obligations.RestartReinitialisesTheSession : Prop :=
  ∀ s : State, ∃ m : Memory,
    exec .restartNfc s =
      .next { s with
        img := m, auth := false, bd := false, lp := locks s.params m false,
        dirty := (if s.params.restartDirtyPolicy = .keep then s.dirty else false),
        outbox := s.outbox ++
          (if s.params.restartDirtyPolicy = .persist ∧ s.dirty = true then [.persist m] else []) ++ [.nfcRestart] } ∧
    ChecksumsMatch m ∧ ∀ x, x ≠ 3 → x ≠ 8 → Memory.read m x = Memory.read s.img x

/-- R178: KEEPALIVE_1A answers by KEEPALIVE_RESP (D22) and changes nothing. -/
def Obligations.Keepalive1AAcknowledges : Prop :=
  ∀ s : State, exec .keepalive1A s =
    .next { s with outbox := s.outbox ++ (if s.params.keepaliveResp = .emptyFrame then [.respond []] else []) }

/-- R179: KEEPALIVE_93 answers by KEEPALIVE_RESP (D22) and changes nothing. -/
def Obligations.Keepalive93Acknowledges : Prop :=
  ∀ s : State, exec .keepalive93 s =
    .next { s with outbox := s.outbox ++ (if s.params.keepaliveResp = .emptyFrame then [.respond []] else []) }

/-! ## The lock engine, REPAIR and INIT -/

/-- R111 to R114: which pages LOCKS locks, for every value of the two parameters. -/
def Obligations.LocksAreTheUidStaticAndDynamicPages : Prop :=
  ∀ (ps : Config.Params) (m : Memory) (auth : Bool) (p : Nat), p < 143 →
    ((locks ps m auth).getLsbD p = true ↔
      p = 0 ∨ p = 1 ∨
      (8 ≤ p ∧ p ≤ 15 ∧ (Memory.read m 11).getLsbD (p - 8) = true) ∨
      (ps.staticLockMap = .doc ∧ 8 ≤ p ∧ p ≤ 11 ∧ (Memory.read m 10).getLsbD (p - 4) = true) ∨
      (ps.staticLockMap = .ntagStd ∧ 4 ≤ p ∧ p ≤ 7 ∧ (Memory.read m 10).getLsbD p = true) ∨
      (auth = false ∧ 16 ≤ p ∧ p ≤ 129 ∧
        ((ps.dynlockDecode = .perBit ∧ (Memory.read m 520).getLsbD ((p - 16) / 16) = true) ∨
         ps.dynlockDecode = .allWhenUnauth ∨
         (ps.dynlockDecode = .bit0GatesAll ∧ (Memory.read m 520).getLsbD 0 = true))))

/-- The spec's own inference R115: pages LOCKS never locks. -/
def Obligations.SomePagesAreNeverLocked : Prop :=
  ∀ (ps : Config.Params) (m : Memory) (auth : Bool) (p : Nat),
    p = 2 ∨ p = 3 ∨ (130 ≤ p ∧ p ≤ 142) ∨ (ps.staticLockMap = .doc ∧ 4 ≤ p ∧ p ≤ 7) →
    (locks ps m auth).getLsbD p = false

/-- LOCKS reads only bytes 10, 11 and 520 of the image, and not byte 520 when authenticated (R110, R113). -/
def Obligations.LocksReadOnlyTheLockBytes : Prop :=
  ∀ (ps : Config.Params) (m m' : Memory) (auth : Bool), Memory.read m 10 = Memory.read m' 10 →
    Memory.read m 11 = Memory.read m' 11 → (auth = true ∨ Memory.read m 520 = Memory.read m' 520) →
    locks ps m auth = locks ps m' auth

/-- R116: REPAIR writes the two checksums and no other byte, and is idempotent. -/
def Obligations.RepairWritesTheChecksumsOnly : Prop :=
  ∀ m : Memory, ChecksumsMatch (Memory.repair m) ∧
    (∀ x, x ≠ 3 → x ≠ 8 → Memory.read (Memory.repair m) x = Memory.read m x) ∧
    (∀ x, Memory.read (Memory.repair (Memory.repair m)) x = Memory.read (Memory.repair m) x) ∧
    (Memory.wf m = true → Memory.repair (Memory.repair m) = Memory.repair m)

/-- After INIT the mode is LOCKED, LP is LOCKS of the image and the checksums match; DIRTY and the outputs are as before
(R117 to R119, R118 the spec's own decision D21). -/
def Obligations.InitLeavesTheBlockLocked : Prop :=
  ∀ s : State, modeOf (init s) = .locked ∧ (init s).auth = false ∧ (init s).bd = false ∧
    (init s).lp = locks (init s).params (init s).img (init s).auth ∧ ChecksumsMatch (init s).img ∧
    (init s).dirty = s.dirty ∧ (init s).outbox = s.outbox ∧ (init s).params = s.params

/-! ## Invariants and rules of the whole machine -/

/-- The images keep their canonical form: every step keeps it. -/
def Obligations.StepKeepsImagesCanonical : Prop :=
  ∀ s t : State, ImagesCanonical s → step s = .next t → ImagesCanonical t

/-- State.reset has the canonical form. -/
def Obligations.ResetImagesCanonical : Prop := ImagesCanonical State.reset

/-- LP is always a value of LOCKS for the present AUTH: every step keeps that (R40, R41, R44). -/
def Obligations.StepKeepsLocksInForce : Prop :=
  ∀ s t : State, LocksInForce s → step s = .next t → LocksInForce t

/-- State.reset's LP is a value of LOCKS (log 10). -/
def Obligations.ResetLocksInForce : Prop := LocksInForce State.reset

/-- The spec's own inference R45: outside BACKDOOR, with PAGE2_OR_SCOPE = LOCK_BYTES_ONLY, every step keeps the checksums
matching the UID. LocksInForce, which every step keeps, supplies the lock of pages 0 and 1. -/
def Obligations.StepKeepsChecksumsOutsideBackdoor : Prop :=
  ∀ s t : State, ChecksumsMatch s.img → LocksInForce s → s.bd = false → s.params.page2OrScope = .lockBytesOnly →
    step s = .next t → ChecksumsMatch t.img

/-- R217, which takes in the spec's own decisions D16, D21 and D26: the events that change the mode, and no other. -/
def Obligations.OnlyListedEventsChangeTheMode : Prop :=
  ∀ s t : State, step s = .next t →
    (TakesEvent s .deactivate ∨ (∃ img, TakesEvent s (.hostLoad img)) ∨ TakesInstr s .restartNfc ∨
        (modeOf s = .backdoor ∧ TakesInstr s .bdToggle) → modeOf t = .locked) ∧
    (modeOf s ≠ .backdoor ∧ TakesInstr s .bdToggle → modeOf t = .backdoor) ∧
    ((∃ k0 k1 k2 k3, TakesInstr s (.pwdAuth k0 k1 k2 k3) ∧ PasswordMatches s.img k0 k1 k2 k3) →
        modeOf t = (if modeOf s = .locked then .authenticated else modeOf s)) ∧
    (modeOf t ≠ modeOf s →
      TakesEvent s .deactivate ∨ (∃ img, TakesEvent s (.hostLoad img)) ∨ TakesInstr s .restartNfc ∨
      TakesInstr s .bdToggle ∨
      (modeOf s = .locked ∧ ∃ k0 k1 k2 k3, TakesInstr s (.pwdAuth k0 k1 k2 k3) ∧ PasswordMatches s.img k0 k1 k2 k3))

/-- R41: LP is recomputed at the recompute points and at no other step. -/
def Obligations.LocksChangeOnlyAtRecomputePoints : Prop :=
  ∀ s t : State, step s = .next t →
    (AtRecomputePoint s → t.lp = locks t.params t.img t.auth) ∧ (¬AtRecomputePoint s → t.lp = s.lp)

/-- AUTH is set only by a PWD_AUTH match and cleared only at the other recompute points (R37). -/
def Obligations.AuthIsSetOnlyByAPasswordMatch : Prop :=
  ∀ s t : State, step s = .next t →
    (s.auth = false → t.auth = true →
      ∃ k0 k1 k2 k3, TakesInstr s (.pwdAuth k0 k1 k2 k3) ∧ PasswordMatches s.img k0 k1 k2 k3) ∧
    (s.auth = true → t.auth = false →
      TakesEvent s .deactivate ∨ (∃ img, TakesEvent s (.hostLoad img)) ∨ TakesInstr s .restartNfc ∨
      (s.bd = true ∧ TakesInstr s .bdToggle))

/-- BD is set only by the opening BD_TOGGLE and cleared only by the closing one, INIT and DEACTIVATE (R38). -/
def Obligations.BackdoorIsSetOnlyByTheToggle : Prop :=
  ∀ s t : State, step s = .next t →
    (s.bd = false → t.bd = true → TakesInstr s .bdToggle) ∧
    (s.bd = true → t.bd = false →
      TakesEvent s .deactivate ∨ (∃ img, TakesEvent s (.hostLoad img)) ∨ TakesInstr s .restartNfc ∨
      TakesInstr s .bdToggle)

/-- DIRTY is set only by an accepted WRITE; when a step clears it without a HOST_LOAD, that step persists the image (R39;
the discard at HOST_LOAD is the spec's own decision D26). -/
def Obligations.DirtyIsClearedOnlyWithAPersist : Prop :=
  ∀ s t : State, step s = .next t →
    (s.dirty = false → t.dirty = true →
      (∃ p d0 d1 d2 d3, TakesInstr s (.write p d0 d1 d2 d3)) ∧ t.outbox = s.outbox ++ [.respond [0x0A#8]]) ∧
    (s.dirty = true → t.dirty = false →
      (∃ img, TakesEvent s (.hostLoad img)) ∨ (.persist t.img ∈ t.outbox.drop s.outbox.length))

/-- A step only appends outputs, at most one of them a `respond` (R12), and what it persists or hands to the host is the
image at its end (R72, the spec's own decision D20). -/
def Obligations.StepAppendsAtMostOneRespond : Prop :=
  ∀ s t : State, step s = .next t → ∃ out : List Output,
    t.outbox = s.outbox ++ out ∧ (out.filter Output.isRespond).length ≤ 1 ∧
    ∀ m, (.persist m ∈ out ∨ .hostData m ∈ out) → m = t.img

/-- A block with an image has a step for every event (R13, R210), keeps its image, and no step changes the parameters (R8,
R33; log 1). -/
def Obligations.LoadedBlockAlwaysSteps : Prop :=
  (∀ s : State, s.imageLoaded = true → SafeStep s) ∧
  ∀ s t : State, step s = .next t → t.params = s.params ∧ (s.imageLoaded = true → t.imageLoaded = true)

/-- A page in LP cannot be changed by any command frame outside BACKDOOR, but for the two checksum bytes that
RESTART_NFC's REPAIR may rewrite (R153, R69, R116). -/
def Obligations.LockedPagesAreProtectedFromFrames : Prop :=
  ∀ (s t : State) (f : List Byte) (rest : List Event) (p i : Nat), s.bd = false → s.inbox = .frame f :: rest →
    p < 143 → s.lp.getLsbD p = true → i < 4 → 4 * p + i ≠ 3 → 4 * p + i ≠ 8 → step s = .next t →
    Memory.read t.img (4 * p + i) = Memory.read s.img (4 * p + i)

/-- Outside BACKDOOR no command frame changes the signature pages 135 to 142 (R152, R68). -/
def Obligations.SignatureIsFixedOutsideBackdoor : Prop :=
  ∀ (s t : State) (f : List Byte) (rest : List Event) (a : Nat), s.bd = false → s.inbox = .frame f :: rest →
    540 ≤ a → a < 572 → step s = .next t → Memory.read t.img a = Memory.read s.img a

/-- Outside BACKDOOR no command frame clears a bit of the static lock bytes or of the capability container (R154, R155). -/
def Obligations.LockAndCcBitsAreNeverCleared : Prop :=
  ∀ (s t : State) (f : List Byte) (rest : List Event) (a : Nat), s.bd = false → s.inbox = .frame f :: rest →
    10 ≤ a → a ≤ 15 → step s = .next t →
    Memory.read s.img a &&& Memory.read t.img a = Memory.read s.img a
end

