-- ==== Sys2Proof/Laws/Decode.lean ====
section
/-! SUPPORT. The command codes: what each byte selects and that no two codes share a byte. -/

namespace Sys2Proof

@[simp] theorem codeOf_codeByte (k : Code) : codeOf (codeByte k) = some k := by cases k <;> decide

/-- A byte selects a code only if it is that code's byte (R88). -/
theorem codeOf_eq_some (c : Byte) (k : Code) : codeOf c = some k ↔ c = codeByte k := by
  constructor
  · intro h
    unfold codeOf at h
    repeat' split at h
    all_goals first
      | (cases h; simpa [codeByte])
      | cases h
  · rintro rfl; exact codeOf_codeByte k

@[simp] theorem decode_nil : decode [] = .short := rfl

theorem decode_cons_known (c : Byte) (ops : List Byte) (k : Code) (h : codeOf c = some k) :
    decode (c :: ops) = decodeOperands k ops := by simp [decode, h]

theorem decode_cons_unknown (c : Byte) (ops : List Byte) (h : codeOf c = none) :
    decode (c :: ops) = .unknown c := by simp [decode, h]

end Sys2Proof
end

