-- ==== Sys2Proof/Laws/Locks.lean ====
section
/-! SUPPORT. What the lock vector's bits are: membership in the source's set of pages. -/

namespace Sys2Proof.Machine
open Sys2Proof.Config

theorem foldl_pageBit (pages : List Nat) (l : BitVec 143) (p : Nat) (hp : p < 143) :
    (pages.foldl (fun l q => l ||| (1#143 <<< q)) l).getLsbD p = true ↔ l.getLsbD p = true ∨ p ∈ pages := by
  induction pages generalizing l with
  | nil => simp
  | cons q rest ih =>
    rw [List.foldl_cons, ih, List.mem_cons]
    have hq : (1#143 <<< q).getLsbD p = true ↔ p = q := by
      simp only [BitVec.getLsbD_shiftLeft, hp, decide_true, Bool.true_and, BitVec.getLsbD_one,
        Bool.and_eq_true, Bool.not_eq_true', decide_eq_false_iff_not, decide_eq_true_eq]
      omega
    rw [BitVec.getLsbD_or, Bool.or_eq_true, hq, or_assoc]

/-- Bit `p` of the vector of a set of pages says whether `p` is in the set. -/
theorem pageVector_getLsbD (pages : List Nat) (p : Nat) (hp : p < 143) :
    (pageVector pages).getLsbD p = true ↔ p ∈ pages := by
  simp [pageVector, foldl_pageBit pages _ p hp]

theorem mem_lockedPages (slm : StaticLockMap) (dd : DynlockDecode) (b10 b11 b520 : Byte) (auth : Bool) (p : Nat) :
    p ∈ lockedPages slm dd b10 b11 b520 auth ↔
      p = 0 ∨ p = 1 ∨ p ∈ staticPages1 b11 ∨ p ∈ staticPages0 slm b10 ∨ p ∈ dynPages dd b520 auth := by
  simp [lockedPages]

/-- A bit of LOCKS, as membership in the four sources of R110. -/
theorem locks_getLsbD (ps : Params) (m : Memory) (auth : Bool) (p : Nat) (hp : p < 143) :
    (locks ps m auth).getLsbD p = true ↔
      p = 0 ∨ p = 1 ∨ p ∈ staticPages1 (Memory.read m 11) ∨ p ∈ staticPages0 ps.staticLockMap (Memory.read m 10) ∨
        p ∈ dynPages ps.dynlockDecode (Memory.read m 520) auth := by
  rw [locks, pageVector_getLsbD _ _ hp, mem_lockedPages]

/-- The pages of a dynamic block (R114). -/
theorem mem_dynBlock (b p : Nat) (hb : b < 8) :
    p ∈ dynBlock b ↔ 16 ≤ p ∧ p ≤ 129 ∧ (p - 16) / 16 = b := by
  simp only [dynBlock]
  split
  · next h => subst h; simp; omega
  · next h =>
    simp only [List.mem_map, List.mem_range]
    constructor
    · rintro ⟨i, hi, rfl⟩; omega
    · rintro ⟨h1, h2, h3⟩; exact ⟨p - (16 + 16 * b), by omega, by omega⟩

/-- LOCKS depends on the image through the three lock bytes alone (R110). -/
theorem locks_congr (ps : Params) (m m' : Memory) (auth : Bool) (h10 : Memory.read m 10 = Memory.read m' 10)
    (h11 : Memory.read m 11 = Memory.read m' 11) (h520 : Memory.read m 520 = Memory.read m' 520) :
    locks ps m auth = locks ps m' auth := by
  simp [locks, h10, h11, h520]

end Sys2Proof.Machine
end

