-- ==== Sys2Proof/Laws/Memory.lean ====
section
/-! SUPPORT. The laws of the image: a read after a write, and the canonical form that every operation keeps. -/

namespace Sys2Proof.Machine

@[simp] theorem Memory.read_nil (a : Nat) : Memory.read [] a = 0x00#8 := rfl

theorem Memory.read_cons (k : Nat) (b : Byte) (rest : Memory) (a : Nat) :
    Memory.read ((k, b) :: rest) a = if k = a then b else Memory.read rest a := rfl

theorem Memory.read_erase (m : Memory) (a x : Nat) :
    Memory.read (Memory.erase m a) x = if x = a then 0x00#8 else Memory.read m x := by
  induction m with
  | nil => simp [Memory.erase]
  | cons c rest ih =>
    obtain ⟨k, b⟩ := c
    simp only [Memory.erase, Memory.read_cons]
    split
    · rw [ih]; grind
    · rw [Memory.read_cons, ih]; grind

theorem Memory.ne_of_mem_erase (m : Memory) (a : Nat) : ∀ c ∈ Memory.erase m a, c.1 ≠ a := by
  induction m with
  | nil => simp [Memory.erase]
  | cons c rest ih =>
    obtain ⟨k, b⟩ := c
    simp only [Memory.erase]
    split
    · exact ih
    · next hk => simpa [hk] using ih

theorem Memory.read_insert (m : Memory) (a : Nat) (b : Byte) (x : Nat) (hm : ∀ c ∈ m, c.1 ≠ a) :
    Memory.read (Memory.insert m a b) x = if x = a then b else Memory.read m x := by
  induction m with
  | nil => simp only [Memory.insert, Memory.read_cons, Memory.read_nil]; grind
  | cons c rest ih =>
    obtain ⟨k, v⟩ := c
    have hk : k ≠ a := hm (k, v) (by simp)
    have hrest := ih (fun c hc => hm c (by simp [hc]))
    simp only [Memory.insert]
    split
    · simp only [Memory.read_cons]; grind
    · simp only [Memory.read_cons, hrest]; grind

/-- A write is read back at its offset and nowhere else, on every list. -/
@[simp] theorem Memory.read_write (m : Memory) (a : Nat) (b : Byte) (x : Nat) :
    Memory.read (Memory.write m a b) x = if x = a then b else Memory.read m x := by
  unfold Memory.write
  split
  · next hb => rw [Memory.read_erase, hb]
  · rw [Memory.read_insert _ _ _ _ (Memory.ne_of_mem_erase m a), Memory.read_erase]; grind

/-- `MemWrite` stores its bytes in ascending order and nothing else. -/
theorem Memory.read_writeBytes (m : Memory) (a : Nat) (v : List Byte) (x : Nat) :
    Memory.read (Memory.writeBytes m a v) x =
      if a ≤ x ∧ x < a + v.length then v.getD (x - a) 0x00#8 else Memory.read m x := by
  induction v generalizing m a with
  | nil => simp [Memory.writeBytes]
  | cons b rest ih =>
    simp only [Memory.writeBytes, ih, Memory.read_write, List.length_cons]
    rcases Nat.lt_trichotomy x a with h | h | h
    · rw [if_neg (by omega), if_neg (by omega), if_neg (by omega)]
    · subst h; rw [if_neg (by omega), if_pos rfl, if_pos (by omega)]; simp
    · obtain ⟨j, rfl⟩ : ∃ j, x = a + 1 + j := ⟨x - (a + 1), by omega⟩
      by_cases hj : a + 1 + j < a + 1 + rest.length
      · rw [if_pos (by omega), if_pos (by omega), show a + 1 + j - (a + 1) = j by omega,
          show a + 1 + j - a = j + 1 by omega, List.getD_cons_succ]
      · rw [if_neg (by omega), if_neg (by omega), if_neg (by omega)]

/-- The OR of a config page: each byte of the region is OR'd, nothing else changes. -/
theorem Memory.read_orBytes (m : Memory) (a : Nat) (v : List Byte) (x : Nat) :
    Memory.read (Memory.orBytes m a v) x =
      if a ≤ x ∧ x < a + v.length then Memory.read m x ||| v.getD (x - a) 0x00#8 else Memory.read m x := by
  induction v generalizing m a with
  | nil => simp [Memory.orBytes]
  | cons b rest ih =>
    simp only [Memory.orBytes, ih, Memory.read_write, List.length_cons]
    rcases Nat.lt_trichotomy x a with h | h | h
    · rw [if_neg (by omega), if_neg (by omega), if_neg (by omega)]
    · subst h; rw [if_neg (by omega), if_pos rfl, if_pos (by omega)]; simp
    · obtain ⟨j, rfl⟩ : ∃ j, x = a + 1 + j := ⟨x - (a + 1), by omega⟩
      by_cases hj : a + 1 + j < a + 1 + rest.length
      · rw [if_pos (by omega), if_neg (by omega), if_pos (by omega), show a + 1 + j - (a + 1) = j by omega,
          show a + 1 + j - a = j + 1 by omega, List.getD_cons_succ]
      · rw [if_neg (by omega), if_neg (by omega), if_neg (by omega)]

/-- A loaded image reads as the bytes it was made of. -/
theorem Memory.read_ofBytesFrom (a : Nat) (v : List Byte) (x : Nat) :
    Memory.read (Memory.ofBytesFrom a v) x = if a ≤ x then v.getD (x - a) 0x00#8 else 0x00#8 := by
  induction v generalizing a with
  | nil => simp [Memory.ofBytesFrom]
  | cons b rest ih =>
    simp only [Memory.ofBytesFrom]
    rcases Nat.lt_trichotomy x a with h | h | h
    · split
      · rw [ih, if_neg (by omega), if_neg (by omega)]
      · rw [Memory.read_cons, if_neg (by omega), ih, if_neg (by omega), if_neg (by omega)]
    · subst h
      split
      · next hb => rw [ih, if_neg (by omega), if_pos (Nat.le_refl _)]; simp [hb]
      · rw [Memory.read_cons, if_pos rfl, if_pos (Nat.le_refl _)]; simp
    · obtain ⟨j, rfl⟩ : ∃ j, x = a + 1 + j := ⟨x - (a + 1), by omega⟩
      have hg : (b :: rest).getD (a + 1 + j - a) 0x00#8 = rest.getD (a + 1 + j - (a + 1)) 0x00#8 := by
        rw [show a + 1 + j - a = j + 1 by omega, List.getD_cons_succ, show a + 1 + j - (a + 1) = j by omega]
      rw [if_pos (show a ≤ a + 1 + j by omega), hg]
      split
      · rw [ih, if_pos (by omega)]
      · rw [Memory.read_cons, if_neg (by omega), ih, if_pos (by omega)]

/-- REPAIR writes BCC0 and BCC1 and nothing else. -/
@[simp] theorem Memory.read_repair (m : Memory) (x : Nat) :
    Memory.read (Memory.repair m) x =
      if x = 8 then Memory.read m 4 ^^^ Memory.read m 5 ^^^ Memory.read m 6 ^^^ Memory.read m 7
      else if x = 3 then Memory.read m 0 ^^^ Memory.read m 1 ^^^ Memory.read m 2 ^^^ 0x88#8
      else Memory.read m x := by
  simp [Memory.repair]

/-! The canonical form. -/

theorem Memory.wfFrom_cons (lo k : Nat) (b : Byte) (rest : Memory) :
    Memory.wfFrom lo ((k, b) :: rest) = true ↔
      lo ≤ k ∧ k < 572 ∧ b ≠ 0x00#8 ∧ Memory.wfFrom (k + 1) rest = true := by
  simp [Memory.wfFrom, and_assoc]

theorem Memory.wfFrom_mono {lo lo' : Nat} (m : Memory) (h : lo' ≤ lo) (hm : Memory.wfFrom lo m = true) :
    Memory.wfFrom lo' m = true := by
  cases m with
  | nil => rfl
  | cons c rest =>
    obtain ⟨k, b⟩ := c
    rw [Memory.wfFrom_cons] at hm ⊢
    exact ⟨by omega, hm.2⟩

theorem Memory.wfFrom_erase (lo : Nat) (m : Memory) (a : Nat) (hm : Memory.wfFrom lo m = true) :
    Memory.wfFrom lo (Memory.erase m a) = true := by
  induction m generalizing lo with
  | nil => rfl
  | cons c rest ih =>
    obtain ⟨k, b⟩ := c
    rw [Memory.wfFrom_cons] at hm
    obtain ⟨h1, h2, h3, h4⟩ := hm
    simp only [Memory.erase]
    split
    · exact Memory.wfFrom_mono _ (by omega) (ih (k + 1) h4)
    · rw [Memory.wfFrom_cons]; exact ⟨h1, h2, h3, ih _ h4⟩

theorem Memory.wfFrom_insert (lo : Nat) (m : Memory) (a : Nat) (b : Byte) (hm : Memory.wfFrom lo m = true)
    (hlo : lo ≤ a) (ha : a < 572) (hb : b ≠ 0x00#8) (hne : ∀ c ∈ m, c.1 ≠ a) :
    Memory.wfFrom lo (Memory.insert m a b) = true := by
  induction m generalizing lo with
  | nil => simp only [Memory.insert]; rw [Memory.wfFrom_cons]; exact ⟨hlo, ha, hb, rfl⟩
  | cons c rest ih =>
    obtain ⟨k, v⟩ := c
    have hk : k ≠ a := hne (k, v) (by simp)
    have hm' := hm
    rw [Memory.wfFrom_cons] at hm'
    obtain ⟨h1, h2, h3, h4⟩ := hm'
    simp only [Memory.insert]
    split
    · rw [Memory.wfFrom_cons]
      refine ⟨hlo, ha, hb, ?_⟩
      rw [Memory.wfFrom_cons]; exact ⟨by omega, h2, h3, h4⟩
    · rw [Memory.wfFrom_cons]
      exact ⟨h1, h2, h3, ih (k + 1) h4 (by omega) (fun c hc => hne c (by simp [hc]))⟩

/-- A write inside the image keeps the canonical form. -/
theorem Memory.wf_write (m : Memory) (a : Nat) (b : Byte) (hm : Memory.wf m = true) (ha : a < 572) :
    Memory.wf (Memory.write m a b) = true := by
  unfold Memory.wf Memory.write at *
  split
  · exact Memory.wfFrom_erase 0 m a hm
  · next hb =>
    exact Memory.wfFrom_insert 0 _ a b (Memory.wfFrom_erase 0 m a hm) (Nat.zero_le _) ha hb
      (Memory.ne_of_mem_erase m a)

theorem Memory.wf_writeBytes (m : Memory) (a : Nat) (v : List Byte) (hm : Memory.wf m = true)
    (ha : a + v.length ≤ 572) : Memory.wf (Memory.writeBytes m a v) = true := by
  induction v generalizing m a with
  | nil => exact hm
  | cons b rest ih =>
    simp only [List.length_cons] at ha
    exact ih _ _ (Memory.wf_write m a b hm (by omega)) (by omega)

theorem Memory.wf_orBytes (m : Memory) (a : Nat) (v : List Byte) (hm : Memory.wf m = true)
    (ha : a + v.length ≤ 572) : Memory.wf (Memory.orBytes m a v) = true := by
  induction v generalizing m a with
  | nil => exact hm
  | cons b rest ih =>
    simp only [List.length_cons] at ha
    exact ih _ _ (Memory.wf_write m a _ hm (by omega)) (by omega)

theorem Memory.wf_repair (m : Memory) (hm : Memory.wf m = true) : Memory.wf (Memory.repair m) = true :=
  Memory.wf_write _ _ _ (Memory.wf_write _ _ _ hm (by decide)) (by decide)

theorem Memory.wfFrom_ofBytesFrom (a : Nat) (v : List Byte) (ha : a + v.length ≤ 572) :
    Memory.wfFrom a (Memory.ofBytesFrom a v) = true := by
  induction v generalizing a with
  | nil => rfl
  | cons b rest ih =>
    simp only [List.length_cons] at ha
    have hrest := ih (a + 1) (by omega)
    simp only [Memory.ofBytesFrom]
    split
    · exact Memory.wfFrom_mono _ (by omega) hrest
    · next hb => rw [Memory.wfFrom_cons]; exact ⟨Nat.le_refl _, by omega, hb, hrest⟩

theorem Memory.wf_ofImage (img : Vector Byte 572) : Memory.wf (Memory.ofImage img) = true :=
  Memory.wfFrom_ofBytesFrom 0 _ (by simp)

theorem Memory.wf_nil : Memory.wf [] = true := rfl

theorem Memory.read_below (lo : Nat) (m : Memory) (hm : Memory.wfFrom lo m = true) (x : Nat) (hx : x < lo) :
    Memory.read m x = 0x00#8 := by
  induction m generalizing lo with
  | nil => rfl
  | cons c rest ih =>
    obtain ⟨k, b⟩ := c
    rw [Memory.wfFrom_cons] at hm
    rw [Memory.read_cons, if_neg (by omega), ih (k + 1) hm.2.2.2 (by omega)]

theorem Memory.wfFrom_ext (lo : Nat) (m m' : Memory) (hm : Memory.wfFrom lo m = true)
    (hm' : Memory.wfFrom lo m' = true) (h : ∀ a, Memory.read m a = Memory.read m' a) : m = m' := by
  induction m generalizing lo m' with
  | nil =>
    cases m' with
    | nil => rfl
    | cons c rest =>
      obtain ⟨k, b⟩ := c
      rw [Memory.wfFrom_cons] at hm'
      have := h k
      simp only [Memory.read_cons, Memory.read_nil, if_true] at this
      exact absurd this.symm hm'.2.2.1
  | cons c rest ih =>
    obtain ⟨k, b⟩ := c
    rw [Memory.wfFrom_cons] at hm
    cases m' with
    | nil =>
      have := h k
      simp only [Memory.read_cons, Memory.read_nil, if_true] at this
      exact absurd this hm.2.2.1
    | cons c' rest' =>
      obtain ⟨k', b'⟩ := c'
      rw [Memory.wfFrom_cons] at hm'
      have hk := h k
      have hk' := h k'
      simp only [Memory.read_cons, if_true] at hk hk'
      have hkk : k = k' := by
        rcases Nat.lt_trichotomy k k' with hlt | heq | hgt
        · rw [if_neg (by omega), Memory.read_below (k' + 1) rest' hm'.2.2.2 k (by omega)] at hk
          exact absurd hk hm.2.2.1
        · exact heq
        · rw [if_neg (by omega), Memory.read_below (k + 1) rest hm.2.2.2 k' (by omega)] at hk'
          exact absurd hk'.symm hm'.2.2.1
      subst hkk
      have hb : b = b' := by simpa using hk
      subst hb
      rw [ih (k + 1) rest' hm.2.2.2 hm'.2.2.2 (fun a => ?_)]
      have ha := h a
      simp only [Memory.read_cons] at ha
      split at ha
      · next hka =>
        subst hka
        rw [Memory.read_below (k + 1) rest hm.2.2.2 k (by omega),
          Memory.read_below (k + 1) rest' hm'.2.2.2 k (by omega)]
      · exact ha

/-- Equal images are equal lists. -/
theorem Memory.ext_of_wf (m m' : Memory) (hm : Memory.wf m = true) (hm' : Memory.wf m' = true)
    (h : ∀ a, Memory.read m a = Memory.read m' a) : m = m' :=
  Memory.wfFrom_ext 0 m m' hm hm' h

end Sys2Proof.Machine
end

