-- ==== Sys2Proof/Laws/State.lean ====
section
/-! SUPPORT. One lemma per field of State per named update, so that no proof unfolds a record update. -/

namespace Sys2Proof.Machine

@[simp] theorem setDirty_params (v : Bool) (s : State) : (setDirty v s).params = s.params := rfl
@[simp] theorem setDirty_imageLoaded (v : Bool) (s : State) : (setDirty v s).imageLoaded = s.imageLoaded := rfl
@[simp] theorem setDirty_img (v : Bool) (s : State) : (setDirty v s).img = s.img := rfl
@[simp] theorem setDirty_auth (v : Bool) (s : State) : (setDirty v s).auth = s.auth := rfl
@[simp] theorem setDirty_bd (v : Bool) (s : State) : (setDirty v s).bd = s.bd := rfl
@[simp] theorem setDirty_dirty (v : Bool) (s : State) : (setDirty v s).dirty = v := rfl
@[simp] theorem setDirty_lp (v : Bool) (s : State) : (setDirty v s).lp = s.lp := rfl
@[simp] theorem setDirty_inbox (v : Bool) (s : State) : (setDirty v s).inbox = s.inbox := rfl
@[simp] theorem setDirty_outbox (v : Bool) (s : State) : (setDirty v s).outbox = s.outbox := rfl

@[simp] theorem setBackdoor_params (v : Bool) (s : State) : (setBackdoor v s).params = s.params := rfl
@[simp] theorem setBackdoor_imageLoaded (v : Bool) (s : State) : (setBackdoor v s).imageLoaded = s.imageLoaded := rfl
@[simp] theorem setBackdoor_img (v : Bool) (s : State) : (setBackdoor v s).img = s.img := rfl
@[simp] theorem setBackdoor_auth (v : Bool) (s : State) : (setBackdoor v s).auth = s.auth := rfl
@[simp] theorem setBackdoor_bd (v : Bool) (s : State) : (setBackdoor v s).bd = v := rfl
@[simp] theorem setBackdoor_dirty (v : Bool) (s : State) : (setBackdoor v s).dirty = s.dirty := rfl
@[simp] theorem setBackdoor_lp (v : Bool) (s : State) : (setBackdoor v s).lp = s.lp := rfl
@[simp] theorem setBackdoor_inbox (v : Bool) (s : State) : (setBackdoor v s).inbox = s.inbox := rfl
@[simp] theorem setBackdoor_outbox (v : Bool) (s : State) : (setBackdoor v s).outbox = s.outbox := rfl

@[simp] theorem setAuth_params (v : Bool) (s : State) : (setAuth v s).params = s.params := rfl
@[simp] theorem setAuth_imageLoaded (v : Bool) (s : State) : (setAuth v s).imageLoaded = s.imageLoaded := rfl
@[simp] theorem setAuth_img (v : Bool) (s : State) : (setAuth v s).img = s.img := rfl
@[simp] theorem setAuth_auth (v : Bool) (s : State) : (setAuth v s).auth = v := rfl
@[simp] theorem setAuth_bd (v : Bool) (s : State) : (setAuth v s).bd = s.bd := rfl
@[simp] theorem setAuth_dirty (v : Bool) (s : State) : (setAuth v s).dirty = s.dirty := rfl
@[simp] theorem setAuth_lp (v : Bool) (s : State) : (setAuth v s).lp = s.lp := rfl
@[simp] theorem setAuth_inbox (v : Bool) (s : State) : (setAuth v s).inbox = s.inbox := rfl
@[simp] theorem setAuth_outbox (v : Bool) (s : State) : (setAuth v s).outbox = s.outbox := rfl

@[simp] theorem emit_params (o : Output) (s : State) : (emit o s).params = s.params := rfl
@[simp] theorem emit_imageLoaded (o : Output) (s : State) : (emit o s).imageLoaded = s.imageLoaded := rfl
@[simp] theorem emit_img (o : Output) (s : State) : (emit o s).img = s.img := rfl
@[simp] theorem emit_auth (o : Output) (s : State) : (emit o s).auth = s.auth := rfl
@[simp] theorem emit_bd (o : Output) (s : State) : (emit o s).bd = s.bd := rfl
@[simp] theorem emit_dirty (o : Output) (s : State) : (emit o s).dirty = s.dirty := rfl
@[simp] theorem emit_lp (o : Output) (s : State) : (emit o s).lp = s.lp := rfl
@[simp] theorem emit_inbox (o : Output) (s : State) : (emit o s).inbox = s.inbox := rfl
@[simp] theorem emit_outbox (o : Output) (s : State) : (emit o s).outbox = s.outbox ++ [o] := rfl

@[simp] theorem respond_params (bytes : List Byte) (s : State) : (respond bytes s).params = s.params := rfl
@[simp] theorem respond_imageLoaded (bytes : List Byte) (s : State) : (respond bytes s).imageLoaded = s.imageLoaded := rfl
@[simp] theorem respond_img (bytes : List Byte) (s : State) : (respond bytes s).img = s.img := rfl
@[simp] theorem respond_auth (bytes : List Byte) (s : State) : (respond bytes s).auth = s.auth := rfl
@[simp] theorem respond_bd (bytes : List Byte) (s : State) : (respond bytes s).bd = s.bd := rfl
@[simp] theorem respond_dirty (bytes : List Byte) (s : State) : (respond bytes s).dirty = s.dirty := rfl
@[simp] theorem respond_lp (bytes : List Byte) (s : State) : (respond bytes s).lp = s.lp := rfl
@[simp] theorem respond_inbox (bytes : List Byte) (s : State) : (respond bytes s).inbox = s.inbox := rfl
@[simp] theorem respond_outbox (bytes : List Byte) (s : State) : (respond bytes s).outbox = s.outbox ++ [.respond bytes] := rfl

@[simp] theorem nak_params (s : State) : (nak s).params = s.params := rfl
@[simp] theorem nak_imageLoaded (s : State) : (nak s).imageLoaded = s.imageLoaded := rfl
@[simp] theorem nak_img (s : State) : (nak s).img = s.img := rfl
@[simp] theorem nak_auth (s : State) : (nak s).auth = s.auth := rfl
@[simp] theorem nak_bd (s : State) : (nak s).bd = s.bd := rfl
@[simp] theorem nak_dirty (s : State) : (nak s).dirty = s.dirty := rfl
@[simp] theorem nak_lp (s : State) : (nak s).lp = s.lp := rfl
@[simp] theorem nak_inbox (s : State) : (nak s).inbox = s.inbox := rfl
@[simp] theorem nak_outbox (s : State) : (nak s).outbox = s.outbox ++ [.respond [0x00#8]] := rfl

@[simp] theorem ack_params (s : State) : (ack s).params = s.params := rfl
@[simp] theorem ack_imageLoaded (s : State) : (ack s).imageLoaded = s.imageLoaded := rfl
@[simp] theorem ack_img (s : State) : (ack s).img = s.img := rfl
@[simp] theorem ack_auth (s : State) : (ack s).auth = s.auth := rfl
@[simp] theorem ack_bd (s : State) : (ack s).bd = s.bd := rfl
@[simp] theorem ack_dirty (s : State) : (ack s).dirty = s.dirty := rfl
@[simp] theorem ack_lp (s : State) : (ack s).lp = s.lp := rfl
@[simp] theorem ack_inbox (s : State) : (ack s).inbox = s.inbox := rfl
@[simp] theorem ack_outbox (s : State) : (ack s).outbox = s.outbox ++ [.respond [0x0A#8]] := rfl

@[simp] theorem persistImage_params (s : State) : (persistImage s).params = s.params := rfl
@[simp] theorem persistImage_imageLoaded (s : State) : (persistImage s).imageLoaded = s.imageLoaded := rfl
@[simp] theorem persistImage_img (s : State) : (persistImage s).img = s.img := rfl
@[simp] theorem persistImage_auth (s : State) : (persistImage s).auth = s.auth := rfl
@[simp] theorem persistImage_bd (s : State) : (persistImage s).bd = s.bd := rfl
@[simp] theorem persistImage_dirty (s : State) : (persistImage s).dirty = s.dirty := rfl
@[simp] theorem persistImage_lp (s : State) : (persistImage s).lp = s.lp := rfl
@[simp] theorem persistImage_inbox (s : State) : (persistImage s).inbox = s.inbox := rfl
@[simp] theorem persistImage_outbox (s : State) : (persistImage s).outbox = s.outbox ++ [.persist s.img] := rfl

@[simp] theorem recomputeLocks_params (s : State) : (recomputeLocks s).params = s.params := rfl
@[simp] theorem recomputeLocks_imageLoaded (s : State) : (recomputeLocks s).imageLoaded = s.imageLoaded := rfl
@[simp] theorem recomputeLocks_img (s : State) : (recomputeLocks s).img = s.img := rfl
@[simp] theorem recomputeLocks_auth (s : State) : (recomputeLocks s).auth = s.auth := rfl
@[simp] theorem recomputeLocks_bd (s : State) : (recomputeLocks s).bd = s.bd := rfl
@[simp] theorem recomputeLocks_dirty (s : State) : (recomputeLocks s).dirty = s.dirty := rfl
@[simp] theorem recomputeLocks_lp (s : State) : (recomputeLocks s).lp = locks s.params s.img s.auth := rfl
@[simp] theorem recomputeLocks_inbox (s : State) : (recomputeLocks s).inbox = s.inbox := rfl
@[simp] theorem recomputeLocks_outbox (s : State) : (recomputeLocks s).outbox = s.outbox := rfl

@[simp] theorem repairImage_params (s : State) : (repairImage s).params = s.params := rfl
@[simp] theorem repairImage_imageLoaded (s : State) : (repairImage s).imageLoaded = s.imageLoaded := rfl
@[simp] theorem repairImage_img (s : State) : (repairImage s).img = Memory.repair s.img := rfl
@[simp] theorem repairImage_auth (s : State) : (repairImage s).auth = s.auth := rfl
@[simp] theorem repairImage_bd (s : State) : (repairImage s).bd = s.bd := rfl
@[simp] theorem repairImage_dirty (s : State) : (repairImage s).dirty = s.dirty := rfl
@[simp] theorem repairImage_lp (s : State) : (repairImage s).lp = s.lp := rfl
@[simp] theorem repairImage_inbox (s : State) : (repairImage s).inbox = s.inbox := rfl
@[simp] theorem repairImage_outbox (s : State) : (repairImage s).outbox = s.outbox := rfl

@[simp] theorem init_params (s : State) : (init s).params = s.params := rfl
@[simp] theorem init_imageLoaded (s : State) : (init s).imageLoaded = s.imageLoaded := rfl
@[simp] theorem init_img (s : State) : (init s).img = Memory.repair s.img := rfl
@[simp] theorem init_auth (s : State) : (init s).auth = false := rfl
@[simp] theorem init_bd (s : State) : (init s).bd = false := rfl
@[simp] theorem init_dirty (s : State) : (init s).dirty = s.dirty := rfl
@[simp] theorem init_lp (s : State) : (init s).lp = locks s.params (Memory.repair s.img) false := rfl
@[simp] theorem init_inbox (s : State) : (init s).inbox = s.inbox := rfl
@[simp] theorem init_outbox (s : State) : (init s).outbox = s.outbox := rfl

@[simp] theorem loadImage_params (m : Memory) (s : State) : (loadImage m s).params = s.params := rfl
@[simp] theorem loadImage_imageLoaded (m : Memory) (s : State) : (loadImage m s).imageLoaded = true := rfl
@[simp] theorem loadImage_img (m : Memory) (s : State) : (loadImage m s).img = Memory.repair m := rfl
@[simp] theorem loadImage_auth (m : Memory) (s : State) : (loadImage m s).auth = false := rfl
@[simp] theorem loadImage_bd (m : Memory) (s : State) : (loadImage m s).bd = false := rfl
@[simp] theorem loadImage_dirty (m : Memory) (s : State) : (loadImage m s).dirty = false := rfl
@[simp] theorem loadImage_lp (m : Memory) (s : State) : (loadImage m s).lp = locks s.params (Memory.repair m) false := rfl
@[simp] theorem loadImage_inbox (m : Memory) (s : State) : (loadImage m s).inbox = s.inbox := rfl
@[simp] theorem loadImage_outbox (m : Memory) (s : State) : (loadImage m s).outbox = s.outbox := rfl

end Sys2Proof.Machine
end

