-- ==== Sys2Proof/Laws/Ops.lean ====
section
/-! SUPPORT. One lemma per shared operation that says once what it can do. -/

namespace Sys2Proof.Machine
open Sys2Proof.Config

/-- A rejection appends at most one response and changes nothing else (R210). -/
theorem reject_cases (r : Rejection) (s : State) :
    (∃ bytes, rejectionResponse s.params r = some bytes ∧
      reject r s = { s with outbox := s.outbox ++ [.respond bytes] }) ∨
    (rejectionResponse s.params r = none ∧ reject r s = s) := by
  unfold reject
  cases h : rejectionResponse s.params r with
  | none => exact .inr ⟨rfl, rfl⟩
  | some bytes => exact .inl ⟨bytes, rfl, rfl⟩

/-- Every rejection but SHORT and AUTH_FAIL answers NAK (R210). -/
theorem reject_nak (r : Rejection) (s : State) (h1 : r ≠ .short) (h2 : r ≠ .authFail) :
    reject r s = { s with outbox := s.outbox ++ [.respond [0x00#8]] } := by
  cases r <;> first | rfl | contradiction

/-- INIT as one record (R117). -/
theorem init_eq (s : State) :
    init s =
      { s with
        img := Memory.repair s.img, auth := false, bd := false, lp := locks s.params (Memory.repair s.img) false } := rfl

/-- A load as one record (R196). -/
theorem loadImage_eq (m : Memory) (s : State) :
    loadImage m s =
      { s with
        imageLoaded := true, img := Memory.repair m, auth := false, bd := false, dirty := false,
        lp := locks s.params (Memory.repair m) false } := rfl

/-- BD_CLOSE as one record (R172). -/
theorem backdoorClose_eq (s : State) :
    backdoorClose s =
      { s with
        img := Memory.repair s.img, auth := false, bd := false, dirty := false,
        lp := locks s.params (Memory.repair s.img) false,
        outbox := s.outbox ++ [.respond s.params.bdDeauthSig] ++ [.persist (Memory.repair s.img)] } := rfl

/-- BD_OPEN as one record (R171). -/
theorem backdoorOpen_eq (s : State) :
    backdoorOpen s =
      { s with bd := true, outbox := s.outbox ++ [.respond s.params.bdUnlockSig.toList] } := rfl

/-- The persist arm of RESTART_NFC (R175): nothing, or a persist that clears DIRTY. -/
theorem persistOnRestart_cases (s : State) :
    persistOnRestart s = s ∨
    (s.params.restartDirtyPolicy = .persist ∧ s.dirty = true ∧
      persistOnRestart s = { s with dirty := false, outbox := s.outbox ++ [.persist s.img] }) := by
  unfold persistOnRestart
  cases hp : s.params.restartDirtyPolicy with
  | keep => exact .inl rfl
  | persist =>
    cases hd : s.dirty with
    | false => exact .inl (by simp)
    | true => exact .inr ⟨rfl, rfl, rfl⟩

/-- A keep-alive appends at most an empty response (R178). -/
theorem keepalive_cases (s : State) :
    (s.params.keepaliveResp = .emptyFrame ∧ keepalive s = { s with outbox := s.outbox ++ [.respond []] }) ∨
    (s.params.keepaliveResp = .noSend ∧ keepalive s = s) := by
  unfold keepalive
  cases h : s.params.keepaliveResp with
  | emptyFrame => exact .inl ⟨rfl, rfl⟩
  | noSend => exact .inr ⟨rfl, rfl⟩

/-- Inside the image a read gives the stored byte (R11). -/
theorem readByte_inside (ps : Params) (m : Memory) (a : Nat) (h : a < 572) : readByte ps m a = [Memory.read m a] := by
  simp [readByte, h]

/-- A read that stays inside the image gives its bytes in ascending order (R11, R62). -/
theorem memRead_inside (ps : Params) (m : Memory) (a n : Nat) (h : a + n ≤ 572) :
    memRead ps m a n = (List.range n).map fun i => Memory.read m (a + i) := by
  rw [memRead, List.map_eq_flatMap]
  refine List.flatMap_congr fun i hi => ?_
  rw [readByte_inside _ _ _ (by have := List.mem_range.mp hi; omega)]

/-- What passes READ's ceiling check: a page of the image within the mode's parameter (R84, R130). -/
theorem le_readCeil_iff (s : State) (p : Nat) :
    p ≤ readCeil s ↔ p ≤ (if s.bd then s.params.readCeilBackdoor.val else s.params.readCeilNormal.val) ∧ p ≤ 142 :=
  Nat.le_min

/-- One byte of a READ window, the tail policy tested first as in R130's own order. -/
theorem windowByte_cases (s : State) (a : Nat) :
    windowByte s a =
      if 572 ≤ a then
        (match s.params.readTailPolicy with
          | .zeroFill => [0x00#8]
          | .truncate => []
          | .wrap => [Memory.read s.img (a - 572)])
      else if s.bd = false ∧ (a / 4 = 133 ∨ a / 4 = 134) then [0x00#8]
      else [Memory.read s.img a] := by
  unfold windowByte isMasked isPwdPage readByte
  by_cases h : 572 ≤ a
  · have h1 : ¬a / 4 = 133 := by omega
    have h2 : ¬a / 4 = 134 := by omega
    rewrite [if_neg (by simp [h1, h2]), if_neg (Nat.not_lt.mpr h), if_pos h]
    cases s.params.readTailPolicy <;> rfl
  · simp [h, Nat.lt_of_not_le h]

/-- One page of a FAST_READ inside the image (R135). -/
theorem fastReadPage_cases (s : State) (q : Nat) (hq : q ≤ 142) :
    fastReadPage s q =
      if s.bd = false ∧ (q = 133 ∨ q = 134) then [0x00#8, 0x00#8, 0x00#8, 0x00#8]
      else [Memory.read s.img (4 * q), Memory.read s.img (4 * q + 1), Memory.read s.img (4 * q + 2),
        Memory.read s.img (4 * q + 3)] := by
  unfold fastReadPage isMasked isPwdPage pageBytes pageOffset
  rw [memRead_inside _ _ _ _ (by omega)]
  simp [List.range_succ]

/-- Where an accepted WRITE can change the image: bytes `4p` to `4p+3` (R150). -/
theorem read_writtenImage_outside (p d0 d1 d2 d3 : Byte) (s : State) (x : Nat)
    (hx : ¬(4 * p.toNat ≤ x ∧ x < 4 * p.toNat + 4)) :
    Memory.read (writtenImage p d0 d1 d2 d3 s) x = Memory.read s.img x := by
  unfold writtenImage pageNum pageOffset
  split
  · next h =>
    rw [h.1] at hx
    cases s.params.page2OrScope
    · simp only [Memory.read_orBytes, List.length_cons, List.length_nil]; rw [if_neg (by simp; omega)]
    · simp only [Memory.read_orBytes, List.length_cons, List.length_nil]; rw [if_neg (by omega)]
  · split
    · next h =>
      rw [h.1] at hx
      simp only [Memory.read_orBytes, List.length_cons, List.length_nil]; rw [if_neg (by simp; omega)]
    · simp only [Memory.read_writeBytes, List.length_cons, List.length_nil]; rw [if_neg (by omega)]

/-- WRITE never leaves the image: its ceiling is at most page 142 (R152). -/
theorem writeCeil_le (s : State) : writeCeil s ≤ 142 := by
  unfold writeCeil
  split
  · exact s.params.writeCeilBackdoor.property.2
  · decide

/-- FAST_READ never leaves the image (R136). -/
theorem fastReadCeil_le (s : State) : fastReadCeil s ≤ 142 := by
  unfold fastReadCeil
  split
  · exact s.params.fastReadCeilBackdoor.property.2
  · decide

/-- An accepted WRITE keeps the image's canonical form. -/
theorem wf_writtenImage (p d0 d1 d2 d3 : Byte) (s : State) (hm : Memory.wf s.img = true) (hp : p.toNat ≤ 142) :
    Memory.wf (writtenImage p d0 d1 d2 d3 s) = true := by
  unfold writtenImage pageNum pageOffset
  split
  · cases s.params.page2OrScope
    · exact Memory.wf_orBytes _ _ _ hm (by simp)
    · exact Memory.wf_orBytes _ _ _ hm (by simp)
  · split
    · exact Memory.wf_orBytes _ _ _ hm (by simp)
    · exact Memory.wf_writeBytes _ _ _ hm (by simp; omega)

end Sys2Proof.Machine
end

