-- ==== Sys2Proof/Laws/PerInstr.lean ====
section
/-! SUPPORT. The family EncodeLength: an encoded instruction has exactly its format's required length (R82). -/

namespace Sys2Proof.Laws.EncodeLength

/-- The frame of `i` begins with a code of R88 and is as long as that code's format requires (R82, R90). -/
def Statement (i : Instr) : Prop :=
  ∃ k ops, encode i = codeByte k :: ops ∧ (encode i).length = requiredLength k

theorem read (p : Byte) : Statement (.read p) := ⟨.read, [p], rfl, rfl⟩

theorem write (p d0 d1 d2 d3 : Byte) : Statement (.write p d0 d1 d2 d3) := ⟨.write, [p, d0, d1, d2, d3], rfl, rfl⟩

theorem getVersion : Statement .getVersion := ⟨.getVersion, [], rfl, rfl⟩

theorem bdToggle : Statement .bdToggle := ⟨.fastRead, [0x85#8, 0x86#8], rfl, rfl⟩

theorem fastRead (s e : Byte) : Statement (.fastRead s e) := ⟨.fastRead, [s, e], rfl, rfl⟩

theorem pwdAuth (k0 k1 k2 k3 : Byte) : Statement (.pwdAuth k0 k1 k2 k3) := ⟨.pwdAuth, [k0, k1, k2, k3], rfl, rfl⟩

theorem readSig (a : Byte) : Statement (.readSig a) := ⟨.readSig, [a], rfl, rfl⟩

theorem restartNfc : Statement .restartNfc := ⟨.restartNfc, [], rfl, rfl⟩

theorem keepalive1A : Statement .keepalive1A := ⟨.keepalive1A, [], rfl, rfl⟩

theorem keepalive93 : Statement .keepalive93 := ⟨.keepalive93, [], rfl, rfl⟩

end Sys2Proof.Laws.EncodeLength
end

