-- ==== Sys2Proof/Laws/Step.lean ====
section
/-! SUPPORT. What one step can do, said once: inversion lemmas for exec, the frame handler and the step. -/

namespace Sys2Proof.Machine
open Sys2Proof.Config

/-- What READ and the other commands that change no state answer: one response, nothing else. -/
def OnlyResponds (s t : State) : Prop := ∃ bytes, t = { s with outbox := s.outbox ++ [.respond bytes] }

theorem execRead_cases (p : Byte) (s : State) : ∃ t, execRead p s = .next t ∧ OnlyResponds s t := by
  unfold execRead
  split
  · exact ⟨_, rfl, _, reject_nak .range s (by decide) (by decide)⟩
  · split
    · exact ⟨_, rfl, _, reject_nak .pwdPage s (by decide) (by decide)⟩
    · exact ⟨_, rfl, _, rfl⟩

theorem execFastRead_cases (a b : Byte) (s : State) : ∃ t, execFastRead a b s = .next t ∧ OnlyResponds s t := by
  unfold execFastRead
  split
  · exact ⟨_, rfl, _, reject_nak .range s (by decide) (by decide)⟩
  · split
    · exact ⟨_, rfl, _, reject_nak .order s (by decide) (by decide)⟩
    · exact ⟨_, rfl, _, rfl⟩

/-- WRITE: a NAK that changes nothing, or an accepted store (R150, R151). -/
theorem execWrite_cases (p d0 d1 d2 d3 : Byte) (s : State) :
    execWrite p d0 d1 d2 d3 s = .next { s with outbox := s.outbox ++ [.respond [0x00#8]] } ∨
    (p.toNat ≤ writeCeil s ∧ (s.bd = true ∨ s.lp.getLsbD p.toNat = false) ∧
      execWrite p d0 d1 d2 d3 s =
        .next { s with
          img := writtenImage p d0 d1 d2 d3 s, dirty := true, outbox := s.outbox ++ [.respond [0x0A#8]] }) := by
  unfold execWrite
  split
  · exact .inl (congrArg _ (reject_nak .range s (by decide) (by decide)))
  · next hc =>
    split
    · exact .inl (congrArg _ (reject_nak .locked s (by decide) (by decide)))
    · next hl =>
      refine .inr ⟨by simpa [pageNum] using hc, ?_, rfl⟩
      cases hb : s.bd with
      | true => exact .inl rfl
      | false => right; simpa [hb, isLocked, pageNum] using hl

/-- PWD_AUTH: the match of R166 or the mismatch of R167. -/
theorem execPwdAuth_cases (k0 k1 k2 k3 : Byte) (s : State) :
    (PasswordMatches s.img k0 k1 k2 k3 ∧
      execPwdAuth k0 k1 k2 k3 s =
        .next { s with
          auth := true, lp := locks s.params s.img true,
          outbox := s.outbox ++ [.respond (memRead s.params s.img s.params.packOffset.val 2)] }) ∨
    (¬PasswordMatches s.img k0 k1 k2 k3 ∧
      execPwdAuth k0 k1 k2 k3 s = .next { s with outbox := s.outbox ++ [.respond s.params.pwdFailResp] }) := by
  have hpw : [k0, k1, k2, k3] = storedPassword s ↔ PasswordMatches s.img k0 k1 k2 k3 := by
    rw [storedPassword, memRead_inside _ _ _ _ (by decide)]
    simp [PasswordMatches, List.range_succ]
  unfold execPwdAuth
  split
  · next h => exact .inl ⟨hpw.mp h, rfl⟩
  · next h => exact .inr ⟨fun hm => h (hpw.mpr hm), rfl⟩

/-- BD_TOGGLE: open or close (R170). -/
theorem execBdToggle_cases (s : State) :
    (s.bd = false ∧ execBdToggle s = .next (backdoorOpen s)) ∨ (s.bd = true ∧ execBdToggle s = .next (backdoorClose s)) := by
  unfold execBdToggle
  cases h : s.bd with
  | false => exact .inl ⟨rfl, by simp⟩
  | true => exact .inr ⟨rfl, by simp⟩

/-- RESTART_NFC, by whether its policy persists (R175). -/
theorem execRestartNfc_cases (s : State) :
    execRestartNfc s =
      .next { s with
        img := Memory.repair s.img, auth := false, bd := false, lp := locks s.params (Memory.repair s.img) false,
        outbox := s.outbox ++ [.nfcRestart] } ∨
    (s.params.restartDirtyPolicy = .persist ∧ s.dirty = true ∧
      execRestartNfc s =
        .next { s with
          img := Memory.repair s.img, auth := false, bd := false, dirty := false,
          lp := locks s.params (Memory.repair s.img) false,
          outbox := s.outbox ++ [.persist (Memory.repair s.img)] ++ [.nfcRestart] }) := by
  unfold execRestartNfc
  rcases persistOnRestart_cases (init s) with h | ⟨h1, h2, h⟩
  · exact .inl (by rw [h]; rfl)
  · exact .inr ⟨h1, h2, by rw [h]; rfl⟩

/-- Everything an instruction can do to the state. -/
inductive ExecEffect : Instr → State → State → Prop
  /-- A response and nothing else: the read commands, every NAK, a password mismatch, a keep-alive. -/
  | responds (i : Instr) (s : State) (bytes : List Byte) :
      (∀ k0 k1 k2 k3, i = .pwdAuth k0 k1 k2 k3 → ¬PasswordMatches s.img k0 k1 k2 k3) → i ≠ .restartNfc → i ≠ .bdToggle →
      ExecEffect i s { s with outbox := s.outbox ++ [.respond bytes] }
  /-- A keep-alive under NO_SEND. -/
  | silent (i : Instr) (s : State) : i = .keepalive1A ∨ i = .keepalive93 → ExecEffect i s s
  /-- An accepted WRITE. -/
  | stores (p d0 d1 d2 d3 : Byte) (s : State) :
      p.toNat ≤ writeCeil s → s.bd = true ∨ s.lp.getLsbD p.toNat = false →
      ExecEffect (.write p d0 d1 d2 d3) s
        { s with img := writtenImage p d0 d1 d2 d3 s, dirty := true, outbox := s.outbox ++ [.respond [0x0A#8]] }
  /-- A password match. -/
  | authenticates (k0 k1 k2 k3 : Byte) (s : State) : PasswordMatches s.img k0 k1 k2 k3 →
      ExecEffect (.pwdAuth k0 k1 k2 k3) s
        { s with
          auth := true, lp := locks s.params s.img true,
          outbox := s.outbox ++ [.respond (memRead s.params s.img s.params.packOffset.val 2)] }
  /-- BD_OPEN. -/
  | opens (s : State) : s.bd = false →
      ExecEffect .bdToggle s { s with bd := true, outbox := s.outbox ++ [.respond s.params.bdUnlockSig.toList] }
  /-- BD_CLOSE. -/
  | closes (s : State) : s.bd = true →
      ExecEffect .bdToggle s
        { s with
          img := Memory.repair s.img, auth := false, bd := false, dirty := false,
          lp := locks s.params (Memory.repair s.img) false,
          outbox := s.outbox ++ [.respond s.params.bdDeauthSig] ++ [.persist (Memory.repair s.img)] }
  /-- RESTART_NFC without a persist. -/
  | restarts (s : State) :
      ExecEffect .restartNfc s
        { s with
          img := Memory.repair s.img, auth := false, bd := false, lp := locks s.params (Memory.repair s.img) false,
          outbox := s.outbox ++ [.nfcRestart] }
  /-- RESTART_NFC with a persist. -/
  | restartsPersisting (s : State) : s.dirty = true →
      ExecEffect .restartNfc s
        { s with
          img := Memory.repair s.img, auth := false, bd := false, dirty := false,
          lp := locks s.params (Memory.repair s.img) false,
          outbox := s.outbox ++ [.persist (Memory.repair s.img)] ++ [.nfcRestart] }

/-- Every instruction answers a next state, with one of these effects: the inversion lemma of exec. -/
theorem exec_effect (i : Instr) (s : State) : ∃ t, exec i s = .next t ∧ ExecEffect i s t := by
  cases i with
  | read p =>
    obtain ⟨t, h, bytes, rfl⟩ := execRead_cases p s
    exact ⟨_, h, .responds _ _ _ (by simp) (by simp) (by simp)⟩
  | write p d0 d1 d2 d3 =>
    rcases execWrite_cases p d0 d1 d2 d3 s with h | ⟨h1, h2, h⟩
    · exact ⟨_, h, .responds _ _ _ (by simp) (by simp) (by simp)⟩
    · exact ⟨_, h, .stores p d0 d1 d2 d3 s h1 h2⟩
  | getVersion => exact ⟨_, rfl, .responds _ _ _ (by simp) (by simp) (by simp)⟩
  | bdToggle =>
    rcases execBdToggle_cases s with ⟨hb, h⟩ | ⟨hb, h⟩
    · exact ⟨_, h, .opens s hb⟩
    · exact ⟨_, h, .closes s hb⟩
  | fastRead a b =>
    obtain ⟨t, h, bytes, rfl⟩ := execFastRead_cases a b s
    exact ⟨_, h, .responds _ _ _ (by simp) (by simp) (by simp)⟩
  | pwdAuth k0 k1 k2 k3 =>
    rcases execPwdAuth_cases k0 k1 k2 k3 s with ⟨hm, h⟩ | ⟨hm, h⟩
    · exact ⟨_, h, .authenticates k0 k1 k2 k3 s hm⟩
    · refine ⟨_, h, .responds _ _ _ ?_ (by simp) (by simp)⟩
      rintro _ _ _ _ ⟨⟩
      exact hm
  | readSig a => exact ⟨_, rfl, .responds _ _ _ (by simp) (by simp) (by simp)⟩
  | restartNfc =>
    rcases execRestartNfc_cases s with h | ⟨_, hd, h⟩
    · exact ⟨_, h, .restarts s⟩
    · exact ⟨_, h, .restartsPersisting s hd⟩
  | keepalive1A =>
    rcases keepalive_cases s with ⟨_, h⟩ | ⟨_, h⟩
    · exact ⟨keepalive s, rfl, h ▸ .responds _ _ _ (by simp) (by simp) (by simp)⟩
    · exact ⟨keepalive s, rfl, by rw [h]; exact .silent _ _ (.inl rfl)⟩
  | keepalive93 =>
    rcases keepalive_cases s with ⟨_, h⟩ | ⟨_, h⟩
    · exact ⟨keepalive s, rfl, h ▸ .responds _ _ _ (by simp) (by simp) (by simp)⟩
    · exact ⟨keepalive s, rfl, by rw [h]; exact .silent _ _ (.inr rfl)⟩

/-- The same, from a known next state. -/
theorem exec_next_effect {i : Instr} {s t : State} (h : exec i s = .next t) : ExecEffect i s t := by
  obtain ⟨t', h', he⟩ := exec_effect i s
  rw [h'] at h
  cases h
  exact he

/-- The frame handler by what the frame decodes to (R90, R86, R91). -/
theorem handleFrame_cases (f : List Byte) (s : State) :
    (∃ i, decode f = .instr i ∧ handleFrame f s = exec i s) ∨
    (decode f = .short ∧ handleFrame f s = .next (reject .short s)) ∨
    (∃ c, decode f = .unknown c ∧ handleFrame f s = .next (reject .unknown s)) := by
  unfold handleFrame
  cases h : decode f with
  | instr i => exact .inl ⟨i, rfl, rfl⟩
  | short => exact .inr (.inl ⟨rfl, rfl⟩)
  | unknown c => exact .inr (.inr ⟨c, rfl, rfl⟩)

/-- Everything a FRAME can do: an instruction's effect, or the answer to a SHORT or UNKNOWN frame (R13, R86, R91). -/
theorem handleFrame_effect {f : List Byte} {s t : State} (h : handleFrame f s = .next t) :
    (∃ i, decode f = .instr i ∧ ExecEffect i s t) ∨
    ((∀ i, decode f ≠ .instr i) ∧ (t = s ∨ OnlyResponds s t)) := by
  rcases handleFrame_cases f s with ⟨i, hd, he⟩ | ⟨hd, he⟩ | ⟨c, hd, he⟩
  · rw [he] at h
    exact .inl ⟨i, hd, exec_next_effect h⟩
  · rw [he] at h
    cases h
    refine .inr ⟨by simp [hd], ?_⟩
    rcases reject_cases .short s with ⟨bytes, _, hr⟩ | ⟨_, hr⟩
    · exact .inr ⟨bytes, hr⟩
    · exact .inl hr
  · rw [he] at h
    cases h
    exact .inr ⟨by simp [hd], .inr ⟨_, reject_nak .unknown s (by decide) (by decide)⟩⟩

/-- What a step that answers a next state can have done: waited, or handled one event (R13, R211, R241). -/
theorem step_next_cases (s t : State) (h : step s = .next t) :
    (s.inbox = [] ∧ t = s) ∨
    ∃ e rest, s.inbox = e :: rest ∧
      ((∃ img, e = .hostLoad img ∧ t = hostLoad img { s with inbox := rest }) ∨
       (s.imageLoaded = true ∧
        ((∃ f, e = .frame f ∧ handleFrame f { s with inbox := rest } = .next t) ∨
         (e = .activate ∧ t = { s with inbox := rest }) ∨
         (e = .deactivate ∧ t = deactivate { s with inbox := rest }) ∨
         (e = .hostRead ∧ t = hostRead { s with inbox := rest })))) := by
  unfold step takeEvent at h
  cases hi : s.inbox with
  | nil => rw [hi] at h; cases h; exact .inl ⟨rfl, rfl⟩
  | cons e rest =>
    rw [hi] at h
    refine .inr ⟨e, rest, rfl, ?_⟩
    cases e with
    | hostLoad img => cases h; exact .inl ⟨img, rfl, rfl⟩
    | frame f =>
      simp only [handleEvent] at h
      split at h
      · next hl => exact .inr ⟨hl, .inl ⟨f, rfl, h⟩⟩
      · cases h
    | activate =>
      simp only [handleEvent] at h
      split at h
      · next hl => cases h; exact .inr ⟨hl, .inr (.inl ⟨rfl, rfl⟩)⟩
      · cases h
    | deactivate =>
      simp only [handleEvent] at h
      split at h
      · next hl => cases h; exact .inr ⟨hl, .inr (.inr (.inl ⟨rfl, rfl⟩))⟩
      · cases h
    | hostRead =>
      simp only [handleEvent] at h
      split at h
      · next hl => cases h; exact .inr ⟨hl, .inr (.inr (.inr ⟨rfl, rfl⟩))⟩
      · cases h

/-- DEACTIVATE: the reset of the session, with a persist that clears DIRTY if it was set (R192). -/
theorem deactivate_cases (s : State) :
    (s.dirty = false ∧ deactivate s = { s with auth := false, bd := false, lp := locks s.params s.img false }) ∨
    (s.dirty = true ∧
      deactivate s =
        { s with
          auth := false, bd := false, lp := locks s.params s.img false, dirty := false,
          outbox := s.outbox ++ [.persist s.img] }) := by
  unfold deactivate persistIfDirty
  cases h : s.dirty with
  | false => exact .inl ⟨rfl, by simp [recomputeLocks, setBackdoor, setAuth, h]⟩
  | true => exact .inr ⟨rfl, by simp [h, recomputeLocks, setBackdoor, setAuth, setDirty, persistImage, emit]⟩

/-- DEACTIVATE, field by field (R192). -/
theorem deactivate_fields (s : State) :
    (deactivate s).auth = false ∧ (deactivate s).bd = false ∧ (deactivate s).dirty = false ∧
    (deactivate s).lp = locks s.params s.img false ∧ (deactivate s).img = s.img ∧ (deactivate s).params = s.params ∧
    (deactivate s).imageLoaded = s.imageLoaded ∧ (deactivate s).inbox = s.inbox ∧
    (deactivate s).outbox = s.outbox ++ (if s.dirty then [.persist s.img] else []) := by
  rcases deactivate_cases s with ⟨hd, h⟩ | ⟨hd, h⟩ <;> rw [h] <;> simp [hd]

/-- The inversion lemma of the step: what each event did to the state whose inbox has lost it. -/
theorem step_cases {s t : State} (h : step s = .next t) :
    (s.inbox = [] ∧ t = s) ∨
    (∃ img rest, s.inbox = .hostLoad img :: rest ∧ t = hostLoad img { s with inbox := rest }) ∨
    (∃ f rest i, s.inbox = .frame f :: rest ∧ decode f = .instr i ∧ ExecEffect i { s with inbox := rest } t) ∨
    (∃ f rest, s.inbox = .frame f :: rest ∧ (∀ i, decode f ≠ .instr i) ∧
      (t = { s with inbox := rest } ∨ OnlyResponds { s with inbox := rest } t)) ∨
    (∃ rest, s.inbox = .activate :: rest ∧ t = { s with inbox := rest }) ∨
    (∃ rest, s.inbox = .deactivate :: rest ∧ t = deactivate { s with inbox := rest }) ∨
    (∃ rest, s.inbox = .hostRead :: rest ∧ t = hostRead { s with inbox := rest }) := by
  rcases step_next_cases s t h with ⟨h1, rfl⟩ | ⟨e, rest, hin, ⟨img, rfl, rfl⟩ | ⟨_, ⟨f, rfl, hf⟩ | ⟨rfl, rfl⟩ | ⟨rfl, rfl⟩ | ⟨rfl, rfl⟩⟩⟩
  · exact .inl ⟨h1, rfl⟩
  · exact .inr (.inl ⟨_, _, hin, rfl⟩)
  · rcases handleFrame_effect hf with ⟨i, hd, he⟩ | ⟨hd, ho⟩
    · exact .inr (.inr (.inl ⟨f, rest, i, hin, hd, he⟩))
    · exact .inr (.inr (.inr (.inl ⟨f, rest, hin, hd, ho⟩)))
  · exact .inr (.inr (.inr (.inr (.inl ⟨_, hin, rfl⟩))))
  · exact .inr (.inr (.inr (.inr (.inr (.inl ⟨_, hin, rfl⟩)))))
  · exact .inr (.inr (.inr (.inr (.inr (.inr ⟨_, hin, rfl⟩)))))

/-- The same for a step that takes a frame. -/
theorem frame_step_cases {s t : State} {f : List Byte} {rest : List Event} (hin : s.inbox = .frame f :: rest)
    (h : step s = .next t) :
    (∃ i, decode f = .instr i ∧ ExecEffect i { s with inbox := rest } t) ∨
    t = { s with inbox := rest } ∨ OnlyResponds { s with inbox := rest } t := by
  rcases step_next_cases s t h with ⟨h1, _⟩ | ⟨e, r, h1, ⟨img, rfl, _⟩ | ⟨_, ⟨f, rfl, hf⟩ | ⟨rfl, _⟩ | ⟨rfl, _⟩ | ⟨rfl, _⟩⟩⟩
  all_goals rw [hin] at h1; cases h1
  rcases handleFrame_effect hf with ⟨i, hd, he⟩ | ⟨_, ho⟩
  · exact .inl ⟨i, hd, he⟩
  · exact .inr ho

/-- The one instruction a frame step can take. -/
theorem takesInstr_iff {s : State} {f : List Byte} {rest : List Event} {i : Instr} (hin : s.inbox = .frame f :: rest)
    (hd : decode f = .instr i) (j : Instr) : TakesInstr s j ↔ j = i := by
  constructor
  · rintro ⟨f', rest', h, h'⟩
    rw [hin] at h
    cases h
    rw [hd] at h'
    cases h'
    rfl
  · rintro rfl
    exact ⟨f, rest, hin, hd⟩

/-- A step that takes another event, or a frame that is no instruction, takes no instruction. -/
theorem not_takesInstr {s : State} {e : Event} {rest : List Event} (hin : s.inbox = e :: rest)
    (he : ∀ f i, e = .frame f → decode f ≠ .instr i) (j : Instr) : ¬TakesInstr s j := by
  rintro ⟨f', rest', h, h'⟩
  rw [hin] at h
  cases h
  exact he _ _ rfl h'

/-- The one event a step can take. -/
theorem takesEvent_iff {s : State} {e : Event} {rest : List Event} (hin : s.inbox = e :: rest) (e' : Event) :
    TakesEvent s e' ↔ e' = e := by
  constructor
  · rintro ⟨r, h⟩
    rw [hin] at h
    cases h
    rfl
  · rintro rfl
    exact ⟨rest, hin⟩

/-- With an empty inbox a step takes nothing. -/
theorem takes_nothing {s : State} (hin : s.inbox = []) : (∀ j, ¬TakesInstr s j) ∧ ∀ e, ¬TakesEvent s e := by
  constructor
  · rintro j ⟨f, rest, h, _⟩
    rw [hin] at h
    cases h
  · rintro e ⟨rest, h⟩
    rw [hin] at h
    cases h

end Sys2Proof.Machine
end

