-- ==== Sys2Proof/Tests/Slice0.lean ====
section
/-! SUPPORT. Small tests of our own: refused ill-formed terms, frames written out from spec/30_encoding.md, one-step vectors
of spec/95_test_vectors.md, and for each statement with hypotheses a witness that meets them. -/

namespace Sys2Proof.Tests
open Sys2Proof Sys2Proof.Machine Sys2Proof.Config

/-! The reference image and the start states of spec/95_test_vectors.md section 2.0. -/

/-- IMG_A, offsets 0 to 529. -/
def imgALow : Memory :=
  [(0, 0x04#8), (1, 0x11#8), (2, 0x22#8), (3, 0xBF#8), (4, 0x33#8), (5, 0x44#8), (6, 0x55#8), (7, 0x66#8), (8, 0x44#8),
    (9, 0x48#8), (12, 0xE1#8), (13, 0x10#8), (14, 0x3E#8), (16, 0x03#8), (18, 0xFE#8)] ++
  [(523, 0xBD#8), (524, 0x04#8), (527, 0xFF#8), (529, 0x05#8)]

/-- IMG_A: the password, PACK and the signature `A0 .. BF` after the low part. -/
def imgA : Memory :=
  imgALow ++ [(532, 0x11#8), (533, 0x22#8), (534, 0x33#8), (535, 0x44#8), (536, 0x80#8), (537, 0x80#8)] ++
    (List.range 32).map fun i => (540 + i, BitVec.ofNat 8 (0xA0 + i))

/-- The default parameters with bytes of our own for the three that the spec leaves OPEN. -/
def testParams : Params :=
  { defaultParams with pwdFailResp := [0xEE#8], bdUnlockSig := #v[1#8, 2#8, 3#8, 4#8], bdDeauthSig := [0xDD#8] }

/-- The state after HOST_LOAD of an image. -/
def loaded (m : Memory) : State := loadImage m { State.reset with params := testParams }

/-- Start state A. -/
def stA : State := loaded imgA
/-- Start state BD. -/
def stBD : State := { stA with bd := true }
/-- Start state AUTH. -/
def stAuth : State := { stA with auth := true }
/-- Start state DYN1. -/
def stDyn1 : State := loaded (Memory.write imgA 520 0x01#8)
/-- Start state W4: page 4 written, DIRTY. -/
def stW4 : State := { stA with img := Memory.writeBytes imgA 16 [1#8, 2#8, 3#8, 4#8], dirty := true }

/-- A state with one event waiting. -/
def withEvent (e : Event) (s : State) : State := { s with inbox := [e] }
/-- A state with one frame waiting. -/
def withFrame (f : List Byte) (s : State) : State := withEvent (.frame f) s

/-- The outputs after one step, if it answers a next state. -/
def outputs (s : State) : Option (List Output) :=
  match step s with
  | .next t => some t.outbox
  | .fault _ => none
  | .refused _ => none

/-- A value read off the state after one step. -/
def after {α : Type} (g : State → α) (s : State) : Option α :=
  match step s with
  | .next t => some (g t)
  | .fault _ => none
  | .refused _ => none

/-- Some image bytes of a state. -/
def bytesAt (a n : Nat) (s : State) : List Byte := (List.range n).map fun i => Memory.read s.img (a + i)

/-- The pages in LP. -/
def lockedSet (l : BitVec 143) : List Nat := (List.range 143).filter fun p => l.getLsbD p

/-! Ill-formed terms are refused. -/

theorem test_wf_refuses_the_toggle_pair : (Instr.fastRead 133#8 134#8).wf = false := by decide
theorem test_wf_admits_its_neighbours : (Instr.fastRead 133#8 133#8).wf = true ∧ (Instr.fastRead 134#8 134#8).wf = true := by decide
theorem test_memory_wf_refuses_disorder : Memory.wf [(5, 1#8), (4, 1#8)] = false ∧ Memory.wf [(5, 1#8), (5, 2#8)] = false := by decide
theorem test_memory_wf_refuses_a_listed_zero : Memory.wf [(5, 0#8)] = false := by decide
theorem test_memory_wf_refuses_offset_572 : Memory.wf [(572, 1#8)] = false ∧ Memory.wf [(571, 1#8)] = true := by decide
theorem test_memory_write_of_zero_removes : Memory.write [(5, 1#8)] 5 0#8 = [] := by decide

/-! Frames written out from R82 and R88. -/

theorem test_decode_read : decode [0x30#8, 0x04#8] = .instr (.read 4#8) := by decide
theorem test_decode_write :
    decode [0xA2#8, 0x10#8, 0x01#8, 0x02#8, 0x03#8, 0x04#8] = .instr (.write 16#8 1#8 2#8 3#8 4#8) := by decide
theorem test_decode_get_version : decode [0x60#8, 0x00#8, 0x11#8] = .instr .getVersion := by decide
theorem test_decode_toggle : decode [0x3A#8, 0x85#8, 0x86#8, 0x00#8] = .instr .bdToggle := by decide
theorem test_decode_fast_read : decode [0x3A#8, 0x85#8, 0x85#8] = .instr (.fastRead 133#8 133#8) := by decide
theorem test_decode_pwd_auth :
    decode [0x1B#8, 0x11#8, 0x22#8, 0x33#8, 0x44#8] = .instr (.pwdAuth 0x11#8 0x22#8 0x33#8 0x44#8) := by decide
theorem test_decode_read_sig : decode [0x3C#8, 0x55#8] = .instr (.readSig 0x55#8) := by decide
theorem test_decode_restart : decode [0x88#8] = .instr .restartNfc := by decide
theorem test_decode_keepalive_1A : decode [0x1A#8] = .instr .keepalive1A := by decide
theorem test_decode_keepalive_93 : decode [0x93#8, 0x20#8] = .instr .keepalive93 := by decide
theorem test_decode_short_and_unknown :
    decode [0x3A#8, 0x04#8] = .short ∧ decode [] = .short ∧ decode [0xA0#8, 0x04#8] = .unknown 0xA0#8 := by decide
theorem test_table_words :
    decodeTableWord 8 0x30 = some (.read 0#8) ∧ decodeTableWord 24 0x86853A = some .bdToggle ∧
      decodeTableWord 8 0xA2 = some (.write 0#8 0#8 0#8 0#8 0#8) ∧ decodeTableWord 8 0x50 = none := by decide

/-! One-step vectors of spec/95_test_vectors.md; the name ends in the vector's id. -/

theorem test_read_RD5 : outputs (withFrame [0x30#8, 0x85#8] stA) =
    some [.respond [0#8, 0#8, 0#8, 0#8, 0#8, 0#8, 0#8, 0#8, 0xA0#8, 0xA1#8, 0xA2#8, 0xA3#8, 0xA4#8, 0xA5#8, 0xA6#8, 0xA7#8]] := by
  decide +kernel
theorem test_read_RD10 : outputs (withFrame [0x30#8, 0x8C#8] stBD) =
    some [.respond [0xB4#8, 0xB5#8, 0xB6#8, 0xB7#8, 0xB8#8, 0xB9#8, 0xBA#8, 0xBB#8, 0xBC#8, 0xBD#8, 0xBE#8, 0xBF#8, 0#8, 0#8, 0#8, 0#8]] := by
  decide +kernel
theorem test_fast_read_FR3 : outputs (withFrame [0x3A#8, 0x84#8, 0x86#8] stA) =
    some [.respond [0#8, 5#8, 0#8, 0#8, 0#8, 0#8, 0#8, 0#8, 0#8, 0#8, 0#8, 0#8]] := by decide +kernel
theorem test_fast_read_FR5 : outputs (withFrame [0x3A#8, 0x85#8, 0x85#8] stBD) =
    some [.respond [0x11#8, 0x22#8, 0x33#8, 0x44#8]] := by decide +kernel
theorem test_read_sig_SG2 : outputs (withFrame [0x3C#8, 0x55#8] stBD) =
    some [.respond ((List.range 32).map fun i => BitVec.ofNat 8 (0xA0 + i))] := by decide +kernel
theorem test_get_version_GV1 : outputs (withFrame [0x60#8] stA) =
    some [.respond [0x00#8, 0x04#8, 0x04#8, 0x02#8, 0x01#8, 0x00#8, 0x11#8, 0x03#8]] := by decide +kernel
theorem test_write_WR4 :
    after (fun t => (bytesAt 8 4 t, t.dirty, lockedSet t.lp, t.outbox)) (withFrame [0xA2#8, 2#8, 0xFF#8, 0xFF#8, 0xFF#8, 0xFF#8] stA) =
      some ([0x44#8, 0x48#8, 0xFF#8, 0xFF#8], true, [0, 1], [.respond [0x0A#8]]) := by decide +kernel
theorem test_write_WR13 :
    after (fun t => (bytesAt 64 4 t, t.dirty, t.outbox)) (withFrame [0xA2#8, 16#8, 1#8, 2#8, 3#8, 4#8] stDyn1) =
      some ([0#8, 0#8, 0#8, 0#8], false, [.respond [0x00#8]]) := by decide +kernel
theorem test_pwd_auth_PA6 :
    after (fun t => (modeOf t, lockedSet t.lp, t.outbox)) (withFrame [0x1B#8, 0x11#8, 0x22#8, 0x33#8, 0x44#8] stDyn1) =
      some (.authenticated, [0, 1], [.respond [0x80#8, 0x80#8]]) := by decide +kernel
theorem test_pwd_auth_PA3 :
    after (fun t => (modeOf t, t.outbox)) (withFrame [0x1B#8, 0#8, 0#8, 0#8, 0#8] stAuth) =
      some (.authenticated, [.respond [0xEE#8]]) := by decide +kernel
theorem test_toggle_BT2 :
    after (fun t => (modeOf t, t.auth, t.outbox)) (withFrame [0x3A#8, 0x85#8, 0x86#8] stAuth) =
      some (.backdoor, true, [.respond [1#8, 2#8, 3#8, 4#8]]) := by decide +kernel
/-- P3 steps 4 to 7: the UID written in BACKDOOR, BCC0 repaired to 9D and BCC1 to 44 by the close. -/
theorem test_toggle_close_P3 :
    after (fun t => (modeOf t, bytesAt 0 9 t, t.outbox == [.respond [0xDD#8], .persist t.img]))
        (withFrame [0x3A#8, 0x85#8, 0x86#8]
          { stBD with img := Memory.writeBytes (Memory.writeBytes imgA 0 [4#8, 0xAA#8, 0xBB#8, 0#8]) 8 [0#8, 0x48#8, 0#8, 0#8], dirty := true }) =
      some (.locked, [0x04#8, 0xAA#8, 0xBB#8, 0x9D#8, 0x33#8, 0x44#8, 0x55#8, 0x66#8, 0x44#8], true) := by decide +kernel
theorem test_restart_RS2 :
    after (fun t => (modeOf t, t.dirty, t.outbox)) (withFrame [0x88#8] stW4) = some (.locked, true, [.nfcRestart]) := by
  decide +kernel
/-- P4 step 4: bits 4 to 7 of byte 10 lock pages 8 to 11. -/
theorem test_restart_P4 :
    after (fun t => lockedSet t.lp) (withFrame [0x88#8] { stA with img := Memory.write imgA 10 0xF0#8 }) =
      some [0, 1, 8, 9, 10, 11] := by decide +kernel
theorem test_keepalive_KA1 : outputs (withFrame [0x1A#8] stA) = some [.respond []] := by decide +kernel
theorem test_keepalive_KA3 : outputs (withFrame [0x93#8, 0x20#8] stA) = some [.respond []] := by decide +kernel
theorem test_unknown_UN1 : outputs (withFrame [0xA0#8, 0x04#8] stA) = some [.respond [0x00#8]] := by decide +kernel
theorem test_deactivate_EV5 :
    after (fun t => (modeOf t, t.dirty, lockedSet t.lp, t.outbox.length))
        (withEvent .deactivate { stA with img := Memory.writeBytes imgA 520 [1#8, 0#8, 0#8, 0#8], dirty := true }) =
      some (.locked, false, [0, 1] ++ (List.range 16).map (16 + ·), 1) := by decide +kernel
/-- LOCKS rows of section 2.1: `F0`, `80`, `FF FF FF` unauthenticated, and the two other decodes of byte 520. -/
theorem test_locks_rows :
    lockedPages .doc .perBit 0xF0#8 0#8 0#8 false = [0, 1, 8, 9, 10, 11] ∧
    lockedPages .ntagStd .perBit 0xF0#8 0#8 0#8 false = [0, 1, 4, 5, 6, 7] ∧
    lockedPages .doc .perBit 0x0F#8 0#8 0x80#8 false = [0, 1, 128, 129] ∧
    lockedPages .doc .perBit 0#8 0#8 0xFF#8 true = [0, 1] ∧
    lockedPages .doc .bit0GatesAll 0#8 0#8 0x80#8 false = [0, 1] ∧
    lockedPages .doc .allWhenUnauth 0#8 0#8 0#8 false = [0, 1] ++ (List.range 114).map (16 + ·) := by decide +kernel
/-- EV8: HOST_LOAD repairs bytes 3 and 8. -/
theorem test_host_load_EV8 : bytesAt 0 9 (loaded (Memory.writeBytes (Memory.write imgA 8 0#8) 3 [0#8])) =
    [0x04#8, 0x11#8, 0x22#8, 0xBF#8, 0x33#8, 0x44#8, 0x55#8, 0x66#8, 0x44#8] := by decide +kernel
/-- A table row placed after reset runs as the first instruction (log 12). -/
theorem test_fetch_word_runs_from_reset :
    after (fun t => t.outbox) (State.reset.withFetchWord 8 0x30) =
      some [.respond [0#8, 0#8, 0#8, 0x88#8, 0#8, 0#8, 0#8, 0#8, 0#8, 0#8, 0#8, 0#8, 0#8, 0#8, 0#8, 0#8]] := by decide +kernel

/-! Witnesses: for each statement with hypotheses, states and operands that meet them all, at the boundaries of each clause. -/

/-- The password of IMG_A. -/
def pwFrame : List Byte := [0x1B#8, 0x11#8, 0x22#8, 0x33#8, 0x44#8]
/-- The toggle frame. -/
def toggleFrame : List Byte := [0x3A#8, 0x85#8, 0x86#8]
/-- A state with one parameter changed. -/
def withParams (g : Params → Params) (s : State) : State := { s with params := g s.params }
/-- `step` answers a next state with the property `P`. -/
def StepsTo (s : State) (P : State → Prop) : Prop := ∃ t, step s = .next t ∧ P t

theorem wit_DecodeOfEncodeWithTrailingBytes :
    (Instr.write 134#8 1#8 2#8 3#8 4#8).wf = true ∧ Instr.bdToggle.wf = true ∧ (Instr.fastRead 134#8 134#8).wf = true := by decide
theorem wit_DecodedFramesBeginWithTheEncoding :
    decode [0x60#8] = .instr .getVersion ∧ decode [0x3A#8, 0x85#8, 0x85#8, 0x00#8] = .instr (.fastRead 133#8 133#8) := by decide
theorem wit_LongFramesDecodeFromTheirRequiredBytes :
    requiredLength .write ≤ (codeByte .write :: [4#8, 1#8, 2#8, 3#8, 4#8]).length ∧
    requiredLength .restartNfc ≤ (codeByte .restartNfc :: [0#8]).length := by decide
theorem wit_ShortFramesAreAnsweredByPolicy :
    (codeByte .write :: [4#8, 1#8, 2#8, 3#8]).length < requiredLength .write ∧
    (∀ pol : ShortFramePolicy,
      let s := withFrame [0x3A#8, 4#8] (withParams (fun ps => { ps with shortFramePolicy := pol }) stA)
      s.imageLoaded = true ∧ s.inbox = .frame [0x3A#8, 4#8] :: [] ∧ decode [0x3A#8, 4#8] = .short) ∧
    (withFrame [] stA).imageLoaded = true ∧ (withFrame [] stA).inbox = .frame [] :: [] ∧ decode [] = .short :=
  ⟨by decide, fun _ => ⟨rfl, rfl, by decide⟩, rfl, rfl, by decide⟩
theorem wit_UnknownCodesAreAnsweredNak :
    0x39#8 ∉ [0x30#8, 0xA2#8, 0x60#8, 0x3A#8, 0x1B#8, 0x3C#8, 0x88#8, 0x1A#8, 0x93#8] ∧
    (withFrame [0x39#8] stA).imageLoaded = true ∧ (withFrame [0x39#8] stA).inbox = .frame (0x39#8 :: []) :: [] :=
  ⟨by decide, rfl, rfl⟩
theorem wit_TogglePairIsNeverFastRead :
    ¬(133#8 = 133#8 ∧ 133#8 = 134#8) ∧ ¬(134#8 = 133#8 ∧ 133#8 = 134#8) := by decide
theorem wit_StepRunsTheDecodedInstr :
    (withFrame pwFrame stA).imageLoaded = true ∧ (withFrame pwFrame stA).inbox = .frame pwFrame :: [] ∧
    decode pwFrame = .instr (.pwdAuth 0x11#8 0x22#8 0x33#8 0x44#8) := ⟨rfl, rfl, by decide⟩
theorem wit_PlacedTableWordRunsNext :
    decodeTableWord 24 0x86853A = some .bdToggle ∧ stA.imageLoaded = true ∧ State.reset.imageLoaded = false :=
  ⟨by decide, rfl, rfl⟩
theorem wit_StepWithoutEventWaits : State.reset.inbox = [] ∧ stA.inbox = [] := ⟨rfl, rfl⟩
theorem wit_NoEventStepsBeforeTheFirstLoad :
    (withFrame [0x60#8] State.reset).imageLoaded = false ∧ (withFrame [0x60#8] State.reset).inbox = .frame [0x60#8] :: [] ∧
    (∀ img, Event.frame [0x60#8] ≠ .hostLoad img) ∧ ∀ img, Event.hostRead ≠ .hostLoad img :=
  ⟨rfl, rfl, fun _ h => Event.noConfusion h, fun _ h => Event.noConfusion h⟩
theorem wit_EventStatements (img : Vector Byte 572) :
    ((withEvent .activate stA).imageLoaded = true ∧ (withEvent .activate stA).inbox = .activate :: []) ∧
    ((withEvent .deactivate stA).imageLoaded = true ∧ (withEvent .deactivate stA).inbox = .deactivate :: [] ∧ stA.dirty = false) ∧
    ((withEvent .deactivate stW4).imageLoaded = true ∧ (withEvent .deactivate stW4).inbox = .deactivate :: [] ∧ stW4.dirty = true) ∧
    (withEvent (.hostLoad img) State.reset).inbox = .hostLoad img :: [] ∧
    ((withEvent .hostRead stA).imageLoaded = true ∧ (withEvent .hostRead stA).inbox = .hostRead :: []) :=
  ⟨⟨rfl, rfl⟩, ⟨rfl, rfl, rfl⟩, ⟨rfl, rfl, rfl⟩, rfl, rfl, rfl⟩

/-- The single response of READ, if exec answers a next state with one more output. -/
def readResponse (p : Byte) (s : State) : Option (List Byte) :=
  match exec (.read p) s with
  | .next t =>
    match t.outbox with
    | [.respond bytes] => some bytes
    | _ => none
  | .fault _ => none
  | .refused _ => none

/-- The window clauses' boundary: a stored byte at offset 571 and the policy's from 572 on. -/
def stTail (pol : ReadTailPolicy) : State := withParams (fun ps => { ps with readTailPolicy := pol }) stBD

/-- The range NAK, just past the ceiling and at the last page byte, and page 134 and 142 just inside it. -/
theorem wit_ReadAnswersItsWindowOrNak_range :
    readResponse 135#8 stA = some [0x00#8] ∧ readResponse 143#8 stBD = some [0x00#8] ∧
    readResponse 255#8 stA = some [0x00#8] ∧ (readResponse 134#8 stA).map List.length = some 16 ∧
    (readResponse 142#8 stBD).map List.length = some 16 := by decide +kernel
/-- NAK_START: pages 133 and 134 outside BACKDOOR and no other, and neither in BACKDOOR. -/
theorem wit_ReadAnswersItsWindowOrNak_nakStart :
    let g : State → State := withParams fun ps => { ps with pwdReadPolicy := .nakStart }
    readResponse 133#8 (g stA) = some [0x00#8] ∧ readResponse 134#8 (g stA) = some [0x00#8] ∧
    (readResponse 132#8 (g stA)).map List.length = some 16 ∧
    (readResponse 133#8 (g stBD)).map (·.take 4) = some [0x11#8, 0x22#8, 0x33#8, 0x44#8] := by decide +kernel
/-- The three tail policies on the last page: 4 stored signature bytes, then zeros, nothing, or the image's first 12. -/
theorem wit_ReadAnswersItsWindowOrNak_tail :
    readResponse 142#8 (stTail .zeroFill) = some ([0xBC#8, 0xBD#8, 0xBE#8, 0xBF#8] ++ List.replicate 12 0x00#8) ∧
    readResponse 142#8 (stTail .truncate) = some [0xBC#8, 0xBD#8, 0xBE#8, 0xBF#8] ∧
    readResponse 142#8 (stTail .wrap) = some [0xBC#8, 0xBD#8, 0xBE#8, 0xBF#8, 0x04#8, 0x11#8, 0x22#8, 0xBF#8,
      0x33#8, 0x44#8, 0x55#8, 0x66#8, 0x44#8, 0x48#8, 0x00#8, 0x00#8] ∧
    (readResponse 139#8 (stTail .truncate)).map List.length = some 16 := by decide +kernel
/-- A READ ceiling of 255: page 142 passes and 143 is NAK, in BACKDOOR and outside, whatever the tail policy (R84; log 16). -/
theorem wit_ReadAnswersItsWindowOrNak_highCeiling :
    let g : State → State := withParams fun ps => { ps with readCeilNormal := 255, readCeilBackdoor := 255 }
    readResponse 143#8 (g (stTail .wrap)) = some [0x00#8] ∧ readResponse 255#8 (g (stTail .truncate)) = some [0x00#8] ∧
    readResponse 143#8 (g stA) = some [0x00#8] ∧
    readResponse 142#8 (g (stTail .truncate)) = some [0xBC#8, 0xBD#8, 0xBE#8, 0xBF#8] ∧
    readResponse 142#8 (g stA) = some ([0xBC#8, 0xBD#8, 0xBE#8, 0xBF#8] ++ List.replicate 12 0x00#8) := by decide +kernel
theorem wit_PagesBeyondTheImageAreNak :
    143 ≤ (143#8).toNat ∧ (143 ≤ (200#8).toNat ∨ 143 ≤ (100#8).toNat) ∧ (143 ≤ (0#8).toNat ∨ 143 ≤ (143#8).toNat) := by decide

theorem wit_ReadGivesTheStoredBytesButThePassword :
    ((134#8).toNat ≤ readCeil stA ∧ (134#8).toNat ≤ 139 ∧ stA.params.pwdReadPolicy = .mask) ∧
    ((139#8).toNat ≤ readCeil stBD ∧ (139#8).toNat ≤ 139 ∧ stBD.bd = true) ∧
    let s := withParams (fun ps => { ps with pwdReadPolicy := .nakStart }) stA
    (132#8).toNat ≤ readCeil s ∧ (132#8).toNat ≤ 139 ∧ (132#8).toNat ≠ 133 ∧ (132#8).toNat ≠ 134 :=
  ⟨⟨by decide, by decide, rfl⟩, ⟨by decide, by decide, rfl⟩, by decide, by decide, by decide, by decide⟩
theorem wit_FastReadAnswersItsRangeOrNak : ¬(134#8 = 133#8 ∧ 134#8 = 134#8) ∧ ¬(0#8 = 133#8 ∧ 255#8 = 134#8) := by decide
theorem wit_FastReadGivesTheStoredBytesButThePassword :
    (¬(0#8 = 133#8 ∧ 134#8 = 134#8) ∧ (0#8).toNat ≤ (134#8).toNat ∧ (134#8).toNat ≤ fastReadCeil stA) ∧
    (¬(133#8 = 133#8 ∧ 133#8 = 134#8) ∧ (133#8).toNat ≤ (133#8).toNat ∧ (133#8).toNat ≤ fastReadCeil stBD) := by decide
theorem wit_ReadCommandsAreIdempotent :
    (Instr.read 255#8).wf = true ∧ (∃ p, Instr.read 255#8 = .read p) ∧ (Instr.fastRead 0#8 134#8).wf = true ∧
    (∃ a b, Instr.fastRead 0#8 134#8 = .fastRead a b) ∧ (Instr.readSig 0#8).wf = true ∧ Instr.getVersion.wf = true :=
  ⟨by decide, ⟨_, rfl⟩, by decide, ⟨_, _, rfl⟩, by decide, by decide⟩
/-- Two images that differ in the password only, at its first and its last offset. -/
theorem wit_PasswordPagesDoNotLeakThroughReads :
    stA.bd = false ∧ (Instr.read 133#8).wf = true ∧ (∃ p, Instr.read 133#8 = .read p) ∧
    ∀ a, ¬(532 ≤ a ∧ a ≤ 539) →
      Memory.read (Memory.write (Memory.write imgA 532 0xFF#8) 539 0xFF#8) a = Memory.read stA.img a :=
  ⟨rfl, rfl, ⟨_, rfl⟩, fun a h => by
    rw [Memory.read_write, Memory.read_write, if_neg (by omega), if_neg (by omega)]
    exact congrArg (Memory.read · a) (by decide +kernel)⟩

theorem wit_AcceptedWriteStoresItsPage :
    (∀ p ∈ [2#8, 3#8, 4#8, 134#8], p.toNat ≤ (if stA.bd then stA.params.writeCeilBackdoor.val else 134) ∧
      stA.lp.getLsbD p.toNat = false) ∧
    (∀ p ∈ [0#8, 2#8, 3#8, 142#8], p.toNat ≤ (if stBD.bd then stBD.params.writeCeilBackdoor.val else 134) ∧ stBD.bd = true) := by
  decide +kernel
theorem wit_RejectedWriteIsNakAndChangesNothing :
    (stA.bd = false ∧ 134 < (135#8).toNat) ∧ (stBD.bd = true ∧ stBD.params.writeCeilBackdoor.val < (143#8).toNat) ∧
    143 ≤ (143#8).toNat ∧ (stA.bd = false ∧ stA.lp.getLsbD (0#8).toNat = true) ∧
    (stDyn1.bd = false ∧ stDyn1.lp.getLsbD (31#8).toNat = true) := by decide +kernel
theorem wit_BackdoorWriteIgnoresTheLocks : stBD.bd = true := rfl

/-- IMG_A's password, with PACK_OFFSET at its default, and at the last offsets of the two PACK statements. -/
theorem wit_PasswordMatchAuthenticates :
    PasswordMatches stA.img 0x11#8 0x22#8 0x33#8 0x44#8 ∧ stA.params.packOffset.val ≤ 570 ∧
    let s := withParams (fun ps => { ps with packOffset := 570 }) stA
    PasswordMatches s.img 0x11#8 0x22#8 0x33#8 0x44#8 ∧ s.params.packOffset.val ≤ 570 := by
  unfold PasswordMatches; decide +kernel
theorem wit_PackAtTheLastOffset :
    let s := withParams (fun ps => { ps with packOffset := 571 }) stA
    PasswordMatches s.img 0x11#8 0x22#8 0x33#8 0x44#8 ∧ s.params.packOffset.val = 571 := by
  unfold PasswordMatches; decide +kernel
theorem wit_PasswordMismatchChangesNothing : ¬PasswordMatches stA.img 0x11#8 0x22#8 0x33#8 0x45#8 := by
  unfold PasswordMatches; decide +kernel
theorem wit_PasswordMatchUnlocksTheDynamicPages :
    PasswordMatches stDyn1.img 0x11#8 0x22#8 0x33#8 0x44#8 ∧ 16 ≤ (16#8).toNat ∧ (16#8).toNat ≤ 129 ∧
    16 ≤ (129#8).toNat ∧ (129#8).toNat ≤ 129 := by
  unfold PasswordMatches; decide +kernel
theorem wit_ToggleStatements : stA.bd = false ∧ stAuth.bd = false ∧ stBD.bd = true := ⟨rfl, rfl, rfl⟩

theorem wit_SomePagesAreNeverLocked :
    (∀ p ∈ [2, 3, 130, 142], p = 2 ∨ p = 3 ∨ (130 ≤ p ∧ p ≤ 142)) ∧
    ∀ p ∈ [4, 7], stA.params.staticLockMap = .doc ∧ 4 ≤ p ∧ p ≤ 7 := by decide
/-- The five clauses of LOCKS, each at the first and the last page it can lock; and page 142 in none. -/
theorem wit_LocksAreTheUidStaticAndDynamicPages :
    lockedSet (locks testParams imgA false) = [0, 1] ∧
    lockedSet (locks testParams [(11, 0x81#8)] false) = [0, 1, 8, 15] ∧
    lockedSet (locks testParams [(10, 0x90#8)] true) = [0, 1, 8, 11] ∧
    lockedSet (locks { testParams with staticLockMap := .ntagStd } [(10, 0x90#8)] true) = [0, 1, 4, 7] ∧
    lockedSet (locks testParams [(520, 0x80#8)] false) = [0, 1, 128, 129] := by decide +kernel
theorem wit_LocksReadOnlyTheLockBytes :
    Memory.read imgA 10 = Memory.read (Memory.write imgA 520 0xFF#8) 10 ∧
    Memory.read imgA 11 = Memory.read (Memory.write imgA 520 0xFF#8) 11 ∧
    Memory.read imgA 520 = Memory.read (Memory.write imgA 521 0xFF#8) 520 := by decide +kernel
theorem wit_RepairWritesTheChecksumsOnly : Memory.wf imgA = true := by decide +kernel

theorem inForce_stA : LocksInForce stA := ⟨0#8, 0#8, 0#8, by decide +kernel⟩

theorem wit_StepKeepsImagesCanonical :
    ImagesCanonical (withEvent .deactivate stW4) ∧ StepsTo (withEvent .deactivate stW4) fun _ => True :=
  ⟨⟨by decide +kernel, fun _ h => nomatch h⟩, _, rfl, trivial⟩
theorem wit_StepKeepsLocksInForce :
    LocksInForce (withFrame pwFrame stA) ∧ StepsTo (withFrame pwFrame stA) fun t => t.auth = true :=
  ⟨inForce_stA, _, rfl, by decide +kernel⟩
theorem wit_StepKeepsChecksumsOutsideBackdoor :
    let s := withFrame [0xA2#8, 2#8, 0xFF#8, 0xFF#8, 0xFF#8, 0xFF#8] stA
    ChecksumsMatch s.img ∧ LocksInForce s ∧ s.bd = false ∧ s.params.page2OrScope = .lockBytesOnly ∧
      StepsTo s fun t => t.dirty = true :=
  ⟨by unfold ChecksumsMatch; decide +kernel, inForce_stA, rfl, rfl, _, rfl, by decide +kernel⟩
/-- One step for every row of R217, and a PWD_AUTH match in BACKDOOR. -/
theorem wit_OnlyListedEventsChangeTheMode :
    (TakesEvent (withEvent .deactivate stBD) .deactivate ∧ StepsTo (withEvent .deactivate stBD) fun t => modeOf t = .locked) ∧
    (TakesInstr (withFrame [0x88#8] stBD) .restartNfc ∧ StepsTo (withFrame [0x88#8] stBD) fun t => modeOf t = .locked) ∧
    (modeOf stBD = .backdoor ∧ TakesInstr (withFrame toggleFrame stBD) .bdToggle ∧
      StepsTo (withFrame toggleFrame stBD) fun t => modeOf t = .locked) ∧
    (modeOf stAuth ≠ .backdoor ∧ TakesInstr (withFrame toggleFrame stAuth) .bdToggle ∧
      StepsTo (withFrame toggleFrame stAuth) fun t => modeOf t = .backdoor) ∧
    (TakesInstr (withFrame pwFrame stA) (.pwdAuth 0x11#8 0x22#8 0x33#8 0x44#8) ∧
      StepsTo (withFrame pwFrame stA) fun t => modeOf t = .authenticated) ∧
    StepsTo (withFrame pwFrame stBD) fun t => modeOf t = .backdoor ∧ t.auth = true :=
  ⟨⟨⟨_, rfl⟩, _, rfl, by decide +kernel⟩, ⟨⟨_, _, rfl, by decide⟩, _, rfl, by decide +kernel⟩,
    ⟨rfl, ⟨_, _, rfl, by decide⟩, _, rfl, by decide +kernel⟩, ⟨by decide, ⟨_, _, rfl, by decide⟩, _, rfl, by decide +kernel⟩,
    ⟨⟨_, _, rfl, by decide⟩, _, rfl, by decide +kernel⟩, _, rfl, by decide +kernel⟩
theorem wit_HostLoadChangesTheMode (img : Vector Byte 572) :
    TakesEvent (withEvent (.hostLoad img) stBD) (.hostLoad img) ∧ modeOf stBD = .backdoor ∧
    StepsTo (withEvent (.hostLoad img) stBD) fun t => modeOf t = .locked := ⟨⟨_, rfl⟩, rfl, _, rfl, rfl⟩
/-- A recompute point, and a WRITE of byte 520, which is none. -/
theorem wit_LocksChangeOnlyAtRecomputePoints :
    (AtRecomputePoint (withEvent .deactivate stA) ∧ StepsTo (withEvent .deactivate stA) fun _ => True) ∧
    (¬AtRecomputePoint (withFrame [0xA2#8, 130#8, 1#8, 0#8, 0#8, 0#8] stA) ∧
      StepsTo (withFrame [0xA2#8, 130#8, 1#8, 0#8, 0#8, 0#8] stA) fun t => t.dirty = true) := by
  refine ⟨⟨.inl ⟨_, rfl⟩, _, rfl, trivial⟩, ?_, _, rfl, by decide +kernel⟩
  have hd : decode [0xA2#8, 130#8, 1#8, 0#8, 0#8, 0#8] = .instr (.write 130#8 1#8 0#8 0#8 0#8) := by decide
  rintro (⟨_, h⟩ | ⟨_, _, h⟩ | ⟨_, _, h, h'⟩ | ⟨h, _⟩ | ⟨_, _, _, _, ⟨_, _, h, h'⟩, _⟩)
  · cases h
  · cases h
  · cases h; rw [hd] at h'; cases h'
  · cases h
  · cases h; rw [hd] at h'; cases h'
theorem wit_AuthIsSetOnlyByAPasswordMatch :
    (stA.auth = false ∧ StepsTo (withFrame pwFrame stA) fun t => t.auth = true) ∧
    (stAuth.auth = true ∧ StepsTo (withFrame [0x88#8] stAuth) fun t => t.auth = false) :=
  ⟨⟨rfl, _, rfl, by decide +kernel⟩, rfl, _, rfl, by decide +kernel⟩
theorem wit_BackdoorIsSetOnlyByTheToggle :
    (stA.bd = false ∧ StepsTo (withFrame toggleFrame stA) fun t => t.bd = true) ∧
    (stBD.bd = true ∧ StepsTo (withEvent .deactivate stBD) fun t => t.bd = false) :=
  ⟨⟨rfl, _, rfl, by decide +kernel⟩, rfl, _, rfl, by decide +kernel⟩
theorem wit_DirtyIsClearedOnlyWithAPersist :
    (stA.dirty = false ∧ StepsTo (withFrame [0xA2#8, 4#8, 1#8, 2#8, 3#8, 4#8] stA) fun t => t.dirty = true) ∧
    (stW4.dirty = true ∧ StepsTo (withEvent .deactivate stW4) fun t => t.dirty = false) :=
  ⟨⟨rfl, _, rfl, by decide +kernel⟩, rfl, _, rfl, by decide +kernel⟩
theorem wit_StepAppendsAtMostOneRespond :
    (StepsTo (withFrame toggleFrame stBD) fun t => t.outbox = [.respond [0xDD#8], .persist t.img]) ∧
    StepsTo (withEvent .hostRead stA) fun t => t.outbox = [.hostData t.img] :=
  ⟨⟨_, rfl, by decide +kernel⟩, _, rfl, by decide +kernel⟩
theorem wit_LoadedBlockAlwaysSteps : (withFrame [] stA).imageLoaded = true ∧ StepsTo (withFrame [] stA) fun _ => True :=
  ⟨rfl, _, rfl, trivial⟩
/-- A WRITE aimed at a locked page, at its first and last byte; and RESTART_NFC with byte 2 of locked page 0. -/
theorem wit_LockedPagesAreProtectedFromFrames :
    let s := withFrame [0xA2#8, 16#8, 1#8, 2#8, 3#8, 4#8] stDyn1
    s.bd = false ∧ s.inbox = .frame [0xA2#8, 16#8, 1#8, 2#8, 3#8, 4#8] :: [] ∧ s.lp.getLsbD 16 = true ∧
      s.lp.getLsbD 31 = true ∧ s.lp.getLsbD 0 = true ∧ (StepsTo s fun _ => True) ∧
      StepsTo (withFrame [0x88#8] stDyn1) fun _ => True :=
  ⟨rfl, rfl, by decide +kernel, by decide +kernel, by decide +kernel, ⟨_, rfl, trivial⟩, _, rfl, trivial⟩
theorem wit_FramesOutsideBackdoor :
    let w := [0xA2#8, 142#8, 1#8, 2#8, 3#8, 4#8]
    let z := [0xA2#8, 3#8, 0#8, 0#8, 0#8, 0#8]
    (withFrame w stA).bd = false ∧ (withFrame w stA).inbox = .frame w :: [] ∧ (StepsTo (withFrame w stA) fun _ => True) ∧
    (withFrame z stA).bd = false ∧ (withFrame z stA).inbox = .frame z :: [] ∧ StepsTo (withFrame z stA) fun t => t.dirty = true :=
  ⟨rfl, rfl, ⟨_, rfl, trivial⟩, rfl, rfl, _, rfl, by decide +kernel⟩

end Sys2Proof.Tests
end

