-- ==== Sys2Proof/Proofs/LockRecompute.lean ====
section
/-! PROOFS. LP is recomputed at the recompute points of spec/10_state.md R41 and at no other step: which instructions and
events are such points, what each effect does to LP, and the step put together from the two. -/

namespace Sys2Proof.Machine

/-- The instructions that are recompute points in `s`: those whose rule runs INIT, and a password match (R41). -/
def RecomputesLocks (i : Instr) (s : State) : Prop :=
  i = .restartNfc ∨ (s.bd = true ∧ i = .bdToggle) ∨
  ∃ k0 k1 k2 k3, i = .pwdAuth k0 k1 k2 k3 ∧ PasswordMatches s.img k0 k1 k2 k3

/-- LP is what LOCKS gives for the present image and AUTH (R40). -/
def LocksFresh (s : State) : Prop := s.lp = locks s.params s.img s.auth

/-- A step that takes the instruction `i` is at a recompute point exactly if `i` is one. -/
theorem atRecomputePoint_iff_of_instr {s : State} {f : List Byte} {rest : List Event} {i : Instr}
    (hin : s.inbox = .frame f :: rest) (hd : decode f = .instr i) : AtRecomputePoint s ↔ RecomputesLocks i s := by
  simp [AtRecomputePoint, RecomputesLocks, takesEvent_iff hin, takesInstr_iff hin hd, @eq_comm _ i]

/-- A step that takes an event but no instruction is at a recompute point exactly on DEACTIVATE and HOST_LOAD. -/
theorem atRecomputePoint_iff_of_event {s : State} {e : Event} {rest : List Event} (hin : s.inbox = e :: rest)
    (he : ∀ f i, e = .frame f → decode f ≠ .instr i) :
    AtRecomputePoint s ↔ e = .deactivate ∨ ∃ img, e = .hostLoad img := by
  simp [AtRecomputePoint, takesEvent_iff hin, not_takesInstr hin he, @eq_comm _ e]

/-- A step without an event is at no recompute point. -/
theorem not_atRecomputePoint_of_empty {s : State} (hin : s.inbox = []) : ¬AtRecomputePoint s := by
  obtain ⟨noInstr, noEvent⟩ := takes_nothing hin
  simp [AtRecomputePoint, noInstr, noEvent]

/-- A host's load leaves LP fresh: it ends in INIT (R196). -/
theorem hostLoad_locksFresh (img : Vector Byte 572) (s : State) : LocksFresh (hostLoad img s) := rfl

/-- DEACTIVATE leaves LP fresh, for AUTH 0 (R192). -/
theorem deactivate_locksFresh (s : State) : LocksFresh (deactivate s) := by
  obtain ⟨hauth, _, _, hlp, himg, hparams, _⟩ := deactivate_fields s
  rw [LocksFresh, hlp, hparams, himg, hauth]

/-- What only responds leaves LP alone. -/
theorem OnlyResponds.lp {s t : State} (h : OnlyResponds s t) : t.lp = s.lp := by
  obtain ⟨_, rfl⟩ := h
  rfl

/-- What an instruction does to LP: a recompute point leaves it fresh, any other instruction leaves it alone. WRITE is of the
second kind, whatever page it stores (R44). -/
theorem ExecEffect.lp_cases {i : Instr} {s t : State} (he : ExecEffect i s t) :
    (RecomputesLocks i s ∧ LocksFresh t) ∨ (¬RecomputesLocks i s ∧ t.lp = s.lp) := by
  cases he with
  | responds _ _ bytes noMatch notRestart notToggle =>
    refine .inr ⟨?_, rfl⟩
    rintro (h | ⟨_, h⟩ | ⟨k0, k1, k2, k3, h, hm⟩)
    · exact notRestart h
    · exact notToggle h
    · exact noMatch k0 k1 k2 k3 h hm
  | silent _ _ hk =>
    refine .inr ⟨?_, rfl⟩
    rcases hk with rfl | rfl <;> simp [RecomputesLocks]
  | stores => exact .inr ⟨by simp [RecomputesLocks], rfl⟩
  | authenticates k0 k1 k2 k3 _ hm => exact .inl ⟨.inr (.inr ⟨k0, k1, k2, k3, rfl, hm⟩), rfl⟩
  | opens _ hb => exact .inr ⟨by simp [RecomputesLocks, hb], rfl⟩
  | closes _ hb => exact .inl ⟨.inr (.inl ⟨hb, rfl⟩), rfl⟩
  | restarts => exact .inl ⟨.inl rfl, rfl⟩
  | restartsPersisting => exact .inl ⟨.inl rfl, rfl⟩

/-- What a step does to LP: a recompute point leaves it fresh, any other step leaves it alone. -/
theorem step_lp_cases {s t : State} (h : step s = .next t) :
    (AtRecomputePoint s ∧ LocksFresh t) ∨ (¬AtRecomputePoint s ∧ t.lp = s.lp) := by
  rcases step_cases h with ⟨hin, rfl⟩ | ⟨img, rest, hin, rfl⟩ | ⟨f, rest, i, hin, hd, he⟩ | ⟨f, rest, hin, hd, ht⟩ |
    ⟨rest, hin, rfl⟩ | ⟨rest, hin, rfl⟩ | ⟨rest, hin, rfl⟩
  · exact .inr ⟨not_atRecomputePoint_of_empty hin, rfl⟩
  · exact .inl ⟨(atRecomputePoint_iff_of_event hin (by simp)).2 (.inr ⟨img, rfl⟩), hostLoad_locksFresh _ _⟩
  · -- taking the frame off the inbox changes neither BD nor the image, so it keeps `RecomputesLocks`
    have hp : AtRecomputePoint s ↔ RecomputesLocks i { s with inbox := rest } := atRecomputePoint_iff_of_instr hin hd
    rw [hp]
    exact he.lp_cases
  · have noInstr : ∀ f' i, Event.frame f = .frame f' → decode f' ≠ .instr i := by
      rintro _ i ⟨⟩
      exact hd i
    refine .inr ⟨by simp [atRecomputePoint_iff_of_event hin noInstr], ?_⟩
    rcases ht with rfl | ho
    · rfl
    · exact ho.lp
  · exact .inr ⟨by simp [atRecomputePoint_iff_of_event hin (by simp)], rfl⟩
  · exact .inl ⟨(atRecomputePoint_iff_of_event hin (by simp)).2 (.inl rfl), deactivate_locksFresh _⟩
  · exact .inr ⟨by simp [atRecomputePoint_iff_of_event hin (by simp)], rfl⟩

/-- Settles O49: every step does one of the two things `step_lp_cases` names, so the point it stands at decides which. -/
theorem locksChangeOnlyAtRecomputePoints : Obligations.LocksChangeOnlyAtRecomputePoints := by
  intro s t h
  rcases step_lp_cases h with ⟨hp, hlp⟩ | ⟨hp, hlp⟩
  · exact ⟨fun _ => hlp, fun hn => absurd hp hn⟩
  · exact ⟨fun hn => absurd hn hp, fun _ => hlp⟩

end Sys2Proof.Machine
end

/-! PROOFS. The two ends of the code map of spec/30_encoding.md: what a byte outside R88 does to a loaded block (R91), and
how the one shared code tells BD_TOGGLE from FAST_READ (R89). -/

namespace Sys2Proof

/-- A byte selects no code exactly if it is the byte of none (R88, R91). -/
theorem codeOf_eq_none (c : Byte) : codeOf c = none ↔ ∀ k, c ≠ codeByte k :=
  Option.eq_none_iff_forall_ne_some.trans (forall_congr' fun k => not_congr (codeOf_eq_some c k))

/-- The list of bytes in R91's statement has the byte of every code in it. -/
theorem codeByte_mem_nine (k : Code) :
    codeByte k ∈ [0x30#8, 0xA2#8, 0x60#8, 0x3A#8, 0x1B#8, 0x3C#8, 0x88#8, 0x1A#8, 0x93#8] := by
  cases k <;> simp [codeByte]

/-- A frame of the code 0x3A with both operands: the operand pair alone picks the instruction (R89). -/
theorem decode_fastRead_code (a b : Byte) (rest : List Byte) :
    decode (0x3A#8 :: a :: b :: rest) =
      if a = 133#8 ∧ b = 134#8 then .instr .bdToggle else .instr (.fastRead a b) :=
  decode_cons_known 0x3A#8 (a :: b :: rest) .fastRead (codeOf_codeByte .fastRead)

end Sys2Proof

namespace Sys2Proof.Machine

/-- A loaded block's step on a frame is the frame handler on the state whose inbox has lost that frame (R13). -/
theorem step_eq_handleFrame {s : State} {f : List Byte} {rest : List Event} (loaded : s.imageLoaded = true)
    (hin : s.inbox = .frame f :: rest) : step s = handleFrame f { s with inbox := rest } := by
  simp [step, takeEvent, hin, handleEvent, loaded]

/-- An UNKNOWN frame is handled by its rejection (R91). -/
theorem handleFrame_of_unknown {f : List Byte} {c : Byte} (hd : decode f = .unknown c) (s : State) :
    handleFrame f s = .next (reject .unknown s) := by
  simp [handleFrame, hd]

/-- Settles O5: a byte that is none of the nine codes selects none, so the frame is UNKNOWN, whose rejection answers NAK. -/
theorem unknownCodesAreAnsweredNak : Obligations.UnknownCodesAreAnsweredNak := by
  intro c ops hc
  have noCode : codeOf c = none := by
    rw [codeOf_eq_none]
    rintro k rfl
    exact hc (codeByte_mem_nine k)
  have hd : decode (c :: ops) = .unknown c := decode_cons_unknown c ops noCode
  refine ⟨hd, fun s rest loaded hin => ?_⟩
  rw [step_eq_handleFrame loaded hin, handleFrame_of_unknown hd, reject_nak .unknown _ (by decide) (by decide)]

/-- Settles O6: the two branches of `decode_fastRead_code`. -/
theorem togglePairIsNeverFastRead : Obligations.TogglePairIsNeverFastRead := by
  constructor
  · intro rest
    rw [decode_fastRead_code, if_pos ⟨rfl, rfl⟩]
  · intro a b rest hne
    rw [decode_fastRead_code, if_neg hne]

end Sys2Proof.Machine

/-! PROOFS. The lock engine of spec/40_lock_engine.md: which pages each source of LOCKS holds (R111 to R114), and REPAIR as
the operation that makes the checksums match and leaves alone an image whose checksums match (R116). -/

namespace Sys2Proof.Machine
open Sys2Proof.Config

@[simp] theorem mem_byteBits (b : Nat) : b ∈ byteBits ↔ b < 8 := List.mem_range

/-- The pages of static lock byte 1 (R111). -/
theorem mem_staticPages1 (b11 : Byte) (p : Nat) :
    p ∈ staticPages1 b11 ↔ 8 ≤ p ∧ p ≤ 15 ∧ b11.getLsbD (p - 8) = true := by
  simp only [staticPages1, List.mem_map, List.mem_filter, mem_byteBits]
  constructor
  · rintro ⟨b, ⟨hb, hbit⟩, rfl⟩
    exact ⟨by omega, by omega, by rwa [Nat.add_sub_cancel_left]⟩
  · rintro ⟨hlo, hhi, hbit⟩
    exact ⟨p - 8, ⟨by omega, hbit⟩, by omega⟩

/-- The pages of static lock byte 0 under DOC: four pages up from the bit (R111). -/
theorem mem_staticPages0_doc (b10 : Byte) (p : Nat) :
    p ∈ staticPages0 .doc b10 ↔ 8 ≤ p ∧ p ≤ 11 ∧ b10.getLsbD (p - 4) = true := by
  simp only [staticPages0, List.mem_map, List.mem_filter, mem_byteBits, Bool.and_eq_true, decide_eq_true_eq]
  constructor
  · rintro ⟨b, ⟨hb, hfour, hbit⟩, rfl⟩
    exact ⟨by omega, by omega, by rwa [Nat.add_sub_cancel_left]⟩
  · rintro ⟨hlo, hhi, hbit⟩
    exact ⟨p - 4, ⟨by omega, by omega, hbit⟩, by omega⟩

/-- The pages of static lock byte 0 under NTAG_STD: the bit's own number (R111). -/
theorem mem_staticPages0_ntagStd (b10 : Byte) (p : Nat) :
    p ∈ staticPages0 .ntagStd b10 ↔ 4 ≤ p ∧ p ≤ 7 ∧ b10.getLsbD p = true := by
  simp only [staticPages0, List.map_id', List.mem_filter, mem_byteBits, Bool.and_eq_true, decide_eq_true_eq]
  constructor
  · rintro ⟨hp, hfour, hbit⟩
    exact ⟨hfour, by omega, hbit⟩
  · rintro ⟨hfour, hp, hbit⟩
    exact ⟨by omega, hfour, hbit⟩

/-- The pages of static lock byte 0, for either map. -/
theorem mem_staticPages0 (slm : StaticLockMap) (b10 : Byte) (p : Nat) :
    p ∈ staticPages0 slm b10 ↔
      (slm = .doc ∧ 8 ≤ p ∧ p ≤ 11 ∧ b10.getLsbD (p - 4) = true) ∨
      (slm = .ntagStd ∧ 4 ≤ p ∧ p ≤ 7 ∧ b10.getLsbD p = true) := by
  cases slm with
  | doc => simp [mem_staticPages0_doc]
  | ntagStd => simp [mem_staticPages0_ntagStd]

/-- The three readings of the dynamic lock byte (R113). -/
theorem dynBit_iff (dd : DynlockDecode) (x : Byte) (b : Nat) :
    dynBit dd x b = true ↔
      (dd = .perBit ∧ x.getLsbD b = true) ∨ dd = .allWhenUnauth ∨ (dd = .bit0GatesAll ∧ x.getLsbD 0 = true) := by
  cases dd <;> simp [dynBit]

/-- The pages of the dynamic lock byte: every page from 16 to 129 lies in one block, whose bit decides (R113, R114). -/
theorem mem_dynPages (dd : DynlockDecode) (b520 : Byte) (auth : Bool) (p : Nat) :
    p ∈ dynPages dd b520 auth ↔
      auth = false ∧ 16 ≤ p ∧ p ≤ 129 ∧ dynBit dd b520 ((p - 16) / 16) = true := by
  cases auth with
  | true => simp [dynPages]
  | false =>
    simp only [dynPages, Bool.false_eq_true, if_false, true_and, List.mem_flatMap, List.mem_filter, mem_byteBits]
    constructor
    · rintro ⟨b, ⟨hb, hbit⟩, hp⟩
      obtain ⟨hlo, hhi, rfl⟩ := (mem_dynBlock b p hb).1 hp
      exact ⟨hlo, hhi, hbit⟩
    · rintro ⟨hlo, hhi, hbit⟩
      have hb : (p - 16) / 16 < 8 := by omega
      exact ⟨(p - 16) / 16, ⟨hb, hbit⟩, (mem_dynBlock _ p hb).2 ⟨hlo, hhi, rfl⟩⟩

/-- Settles O38: a bit of LOCKS is membership in one of its four sources, and each source's pages are known. -/
theorem locksAreTheUidStaticAndDynamicPages : Obligations.LocksAreTheUidStaticAndDynamicPages := by
  intro ps m auth p hp
  rw [locks_getLsbD ps m auth p hp, mem_staticPages1, mem_staticPages0, mem_dynPages, dynBit_iff, or_assoc]

/-- REPAIR makes the checksums match: it leaves the UID bytes they are computed from alone (R116). -/
theorem checksumsMatch_repair (m : Memory) : ChecksumsMatch (Memory.repair m) := by
  simp [ChecksumsMatch]

/-- REPAIR changes no byte but the two checksums (R116). -/
theorem Memory.read_repair_of_ne (m : Memory) {x : Nat} (hx3 : x ≠ 3) (hx8 : x ≠ 8) :
    Memory.read (Memory.repair m) x = Memory.read m x := by
  rw [Memory.read_repair, if_neg hx8, if_neg hx3]

/-- REPAIR changes no byte of an image whose checksums match: it writes the values that stand there. -/
theorem ChecksumsMatch.read_repair {m : Memory} (h : ChecksumsMatch m) (x : Nat) :
    Memory.read (Memory.repair m) x = Memory.read m x := by
  obtain ⟨hbcc0, hbcc1⟩ := h
  rw [Memory.read_repair]
  split
  · next hx => rw [hx, hbcc1]
  · split
    · next hx => rw [hx, hbcc0]
    · rfl

/-- A canonical image whose checksums match is a fixed point of REPAIR. -/
theorem ChecksumsMatch.repair_eq_self {m : Memory} (h : ChecksumsMatch m) (hm : Memory.wf m = true) :
    Memory.repair m = m :=
  Memory.ext_of_wf _ _ (Memory.wf_repair m hm) hm h.read_repair

/-- Settles O41: REPAIR is idempotent because a repaired image is one whose checksums match. -/
theorem repairWritesTheChecksumsOnly : Obligations.RepairWritesTheChecksumsOnly := by
  intro m
  have hmatch : ChecksumsMatch (Memory.repair m) := checksumsMatch_repair m
  exact ⟨hmatch, fun _ hx3 hx8 => Memory.read_repair_of_ne m hx3 hx8, hmatch.read_repair,
    fun hm => hmatch.repair_eq_self (Memory.wf_repair m hm)⟩

end Sys2Proof.Machine

/-! PROOFS. WRITE as spec/42_write_command.md has it: when it is accepted (R152, R153), which of the three stores it then
makes (R154 to R157), and what each store leaves in the page's four bytes. -/

namespace Sys2Proof.Machine
open Sys2Proof.Config

/-- Byte `i` of a `MemWrite` is the `i`-th of its bytes. -/
theorem Memory.read_writeBytes_add (m : Memory) (a : Nat) (v : List Byte) {i : Nat} (hi : i < v.length) :
    Memory.read (Memory.writeBytes m a v) (a + i) = v.getD i 0x00#8 := by
  rw [Memory.read_writeBytes, if_pos (by omega), Nat.add_sub_cancel_left]

/-- Byte `i` of an OR is the old byte OR'd with the `i`-th of its bytes. -/
theorem Memory.read_orBytes_add (m : Memory) (a : Nat) (v : List Byte) {i : Nat} (hi : i < v.length) :
    Memory.read (Memory.orBytes m a v) (a + i) = Memory.read m (a + i) ||| v.getD i 0x00#8 := by
  rw [Memory.read_orBytes, if_pos (by omega), Nat.add_sub_cancel_left]

/-- An OR changes no byte below its region. -/
theorem Memory.read_orBytes_below (m : Memory) (a : Nat) (v : List Byte) {x : Nat} (hx : x < a) :
    Memory.read (Memory.orBytes m a v) x = Memory.read m x := by
  rw [Memory.read_orBytes, if_neg (by omega)]

/-- A WRITE that passes the range check and the lock check is accepted: it stores, sets DIRTY and answers ACK (R151). -/
theorem exec_write_of_accepted (p d0 d1 d2 d3 : Byte) {s : State} (inRange : p.toNat ≤ writeCeil s)
    (unlocked : s.bd = true ∨ s.lp.getLsbD p.toNat = false) :
    exec (.write p d0 d1 d2 d3) s =
      .next { s with
        img := writtenImage p d0 d1 d2 d3 s, dirty := true, outbox := s.outbox ++ [.respond [0x0A#8]] } := by
  have rangeOk : ¬pageNum p > writeCeil s := Nat.not_lt.mpr inRange
  have lockOk : ¬(!s.bd && isLocked s (pageNum p)) = true := by
    rcases unlocked with hbd | hlp
    · simp [hbd]
    · simp [isLocked, pageNum, hlp]
  calc exec (.write p d0 d1 d2 d3) s = execWrite p d0 d1 d2 d3 s := rfl
    _ = .next (ack (setDirty true { s with img := writtenImage p d0 d1 d2 d3 s })) := by
      rw [execWrite, if_neg rangeOk, if_neg lockOk]

/-- Pages 2 and 3 are written raw exactly in BACKDOOR with BACKDOOR_RAW_CONFIG_WRITE (R156). -/
theorem rawConfigWrite_iff (s : State) :
    rawConfigWrite s = true ↔ s.bd = true ∧ s.params.backdoorRawConfigWrite = true :=
  Bool.and_eq_true_iff

/-- A raw write, and a write of any page but 2 and 3, stores its bytes (R156, R157). -/
theorem writtenImage_overwrites {p : Byte} {s : State}
    (h : rawConfigWrite s = true ∨ (p.toNat ≠ 2 ∧ p.toNat ≠ 3)) (d0 d1 d2 d3 : Byte) :
    writtenImage p d0 d1 d2 d3 s = Memory.writeBytes s.img (pageOffset (pageNum p)) [d0, d1, d2, d3] := by
  have notOred : ∀ n, n = 2 ∨ n = 3 → ¬(pageNum p = n ∧ rawConfigWrite s = false) := by
    rintro n hn ⟨hp, hraw⟩
    rcases h with h | ⟨h2, h3⟩
    · simp [hraw] at h
    · rcases hn with rfl | rfl
      · exact h2 hp
      · exact h3 hp
  rw [writtenImage, if_neg (notOred 2 (.inl rfl)), if_neg (notOred 3 (.inr rfl))]

/-- Page 2 written not raw: the byte OR'd, but left alone if it is no lock byte and only these are OR'd (R154). -/
theorem read_writtenImage_page2 {p : Byte} {s : State} (hp : p.toNat = 2) (hraw : rawConfigWrite s = false)
    (d0 d1 d2 d3 : Byte) {i : Nat} (hi : i < 4) :
    Memory.read (writtenImage p d0 d1 d2 d3 s) (pageOffset 2 + i) =
      if s.params.page2OrScope = .lockBytesOnly ∧ i < 2 then Memory.read s.img (pageOffset 2 + i)
      else Memory.read s.img (pageOffset 2 + i) ||| [d0, d1, d2, d3].getD i 0x00#8 := by
  rw [writtenImage, if_pos ⟨hp, hraw⟩]
  cases s.params.page2OrScope with
  | lockBytesOnly =>
    have lockBytesFrom2 : staticLock0Offset = pageOffset 2 + 2 := rfl
    by_cases hlow : i < 2
    · rw [if_pos ⟨rfl, hlow⟩]
      exact Memory.read_orBytes_below _ _ _ (by omega)
    · obtain ⟨j, rfl⟩ : ∃ j, i = j + 2 := ⟨i - 2, by omega⟩
      rw [if_neg (fun h => hlow h.2), show pageOffset 2 + (j + 2) = staticLock0Offset + j by omega]
      exact Memory.read_orBytes_add _ _ [d2, d3] (show j < 2 by omega)
  | allFour =>
    rw [if_neg (fun h => nomatch h.1)]
    exact Memory.read_orBytes_add _ _ _ hi

/-- Page 3 written not raw: the byte OR'd (R155). -/
theorem read_writtenImage_page3 {p : Byte} {s : State} (hp : p.toNat = 3) (hraw : rawConfigWrite s = false)
    (d0 d1 d2 d3 : Byte) {i : Nat} (hi : i < 4) :
    Memory.read (writtenImage p d0 d1 d2 d3 s) (pageOffset 3 + i) =
      Memory.read s.img (pageOffset 3 + i) ||| [d0, d1, d2, d3].getD i 0x00#8 := by
  have notPage2 : ¬(pageNum p = 2 ∧ rawConfigWrite s = false) := by simp [pageNum, hp]
  rw [writtenImage, if_neg notPage2, if_pos ⟨hp, hraw⟩]
  exact Memory.read_orBytes_add _ _ _ hi

/-- Settles O26: an accepted WRITE leaves `writtenImage`, which changes no byte outside its page; in the page, the store is
picked by whether the write is raw and by the page. -/
theorem acceptedWriteStoresItsPage : Obligations.AcceptedWriteStoresItsPage := by
  intro p d0 d1 d2 d3 s inRange unlocked
  refine ⟨writtenImage p d0 d1 d2 d3 s, exec_write_of_accepted p d0 d1 d2 d3 inRange unlocked,
    fun x hx => read_writtenImage_outside p d0 d1 d2 d3 s x hx, fun i hi => ?_⟩
  have overwritten (h : rawConfigWrite s = true ∨ (p.toNat ≠ 2 ∧ p.toNat ≠ 3)) :
      Memory.read (writtenImage p d0 d1 d2 d3 s) (pageOffset (pageNum p) + i) = [d0, d1, d2, d3].getD i 0x00#8 := by
    rw [writtenImage_overwrites h]
    exact Memory.read_writeBytes_add _ _ _ hi
  dsimp only
  by_cases hraw : s.bd = true ∧ s.params.backdoorRawConfigWrite = true
  · rw [if_pos hraw]
    exact overwritten (.inl ((rawConfigWrite_iff s).2 hraw))
  · have notRaw : rawConfigWrite s = false := Bool.eq_false_iff.2 (mt (rawConfigWrite_iff s).1 hraw)
    rw [if_neg hraw]
    by_cases h2 : p.toNat = 2
    · rw [if_pos h2, show pageNum p = 2 from h2]
      exact read_writtenImage_page2 h2 notRaw d0 d1 d2 d3 hi
    · rw [if_neg h2]
      by_cases h3 : p.toNat = 3
      · rw [if_pos h3, show pageNum p = 3 from h3]
        exact read_writtenImage_page3 h3 notRaw d0 d1 d2 d3 hi
      · rw [if_neg h3]
        exact overwritten (.inr ⟨h2, h3⟩)

end Sys2Proof.Machine

/-! PROOFS. Two session commands of spec/43_session_commands.md: PWD_AUTH with the stored password (R166) and BD_TOGGLE
outside BACKDOOR (R171). -/

namespace Sys2Proof.Machine
open Sys2Proof.Config

/-- PWD_AUTH with the stored password: AUTH set, LP recomputed with it, PACK returned (R166). -/
theorem exec_pwdAuth_of_match {k0 k1 k2 k3 : Byte} {s : State} (hmatch : PasswordMatches s.img k0 k1 k2 k3) :
    exec (.pwdAuth k0 k1 k2 k3) s =
      .next { s with
        auth := true, lp := locks s.params s.img true,
        outbox := s.outbox ++ [.respond (memRead s.params s.img s.params.packOffset.val 2)] } := by
  rcases execPwdAuth_cases k0 k1 k2 k3 s with ⟨_, h⟩ | ⟨mismatch, _⟩
  · exact h
  · exact absurd hmatch mismatch

/-- BD_TOGGLE outside BACKDOOR is BD_OPEN (R170). -/
theorem exec_bdToggle_of_bd_clear {s : State} (hbd : s.bd = false) : exec .bdToggle s = .next (backdoorOpen s) := by
  rcases execBdToggle_cases s with ⟨_, h⟩ | ⟨hset, _⟩
  · exact h
  · simp [hbd] at hset

/-- Static lock byte 1 locks no page from 16 on (R111). -/
theorem lt_sixteen_of_mem_staticPages1 {b11 : Byte} {p : Nat} (hp : p ∈ staticPages1 b11) : p < 16 := by
  obtain ⟨_, hhi, _⟩ := (mem_staticPages1 b11 p).1 hp
  omega

/-- Static lock byte 0 locks no page from 16 on, under either map (R111). -/
theorem lt_sixteen_of_mem_staticPages0 {slm : StaticLockMap} {b10 : Byte} {p : Nat} (hp : p ∈ staticPages0 slm b10) :
    p < 16 := by
  rcases (mem_staticPages0 slm b10 p).1 hp with ⟨_, _, hhi, _⟩ | ⟨_, _, hhi, _⟩ <;> omega

/-- The dynamic lock byte locks only pages from 16 on (R114). -/
theorem sixteen_le_of_mem_dynPages {dd : DynlockDecode} {b520 : Byte} {auth : Bool} {p : Nat}
    (hp : p ∈ dynPages dd b520 auth) : 16 ≤ p := by
  obtain ⟨_, hlo, _⟩ := (mem_dynPages dd b520 auth p).1 hp
  exact hlo

/-- Authenticated, the dynamic lock byte locks nothing (R113). -/
theorem not_mem_dynPages_of_auth (dd : DynlockDecode) (b520 : Byte) (p : Nat) : p ∉ dynPages dd b520 true := by
  simp [dynPages]

/-- Authentication keeps the locks of pages 0 to 15, the UID and static ones, and drops every other, the dynamic ones
(R113, R166). -/
theorem locks_auth_iff (ps : Params) (m : Memory) {p : Nat} (hp : p < 143) :
    (locks ps m true).getLsbD p = true ↔ p < 16 ∧ (locks ps m false).getLsbD p = true := by
  rw [locks_getLsbD ps m true p hp, locks_getLsbD ps m false p hp]
  constructor
  · rintro (rfl | rfl | h1 | h0 | hdyn)
    · exact ⟨by decide, .inl rfl⟩
    · exact ⟨by decide, .inr (.inl rfl)⟩
    · exact ⟨lt_sixteen_of_mem_staticPages1 h1, .inr (.inr (.inl h1))⟩
    · exact ⟨lt_sixteen_of_mem_staticPages0 h0, .inr (.inr (.inr (.inl h0)))⟩
    · exact absurd hdyn (not_mem_dynPages_of_auth _ _ p)
  · rintro ⟨hlow, h⟩
    have notDyn : p ∉ dynPages ps.dynlockDecode (Memory.read m 520) false :=
      fun hdyn => absurd (sixteen_le_of_mem_dynPages hdyn) (Nat.not_le.2 hlow)
    simpa only [notDyn, or_false, not_mem_dynPages_of_auth] using h

/-- A read of two bytes inside the image (R11). -/
theorem memRead_two (ps : Params) (m : Memory) {a : Nat} (ha : a ≤ 570) :
    memRead ps m a 2 = [Memory.read m a, Memory.read m (a + 1)] :=
  memRead_inside ps m a 2 (by omega)

/-- Settles O29: the response is the two-byte read at PACK_OFFSET, and LP keeps the locks `locks_auth_iff` says it does. -/
theorem passwordMatchAuthenticates : Obligations.PasswordMatchAuthenticates := by
  intro k0 k1 k2 k3 s hmatch
  exact ⟨_, exec_pwdAuth_of_match hmatch, fun _ hp => locks_auth_iff s.params s.img hp, memRead_two s.params s.img⟩

/-- Settles O33: BD_OPEN is the one record of `backdoorOpen_eq`, and the signature's length is its type's. -/
theorem toggleOpensTheBackdoor : Obligations.ToggleOpensTheBackdoor := by
  intro s hbd
  exact ⟨s.params.bdUnlockSig.length_toList, by rw [exec_bdToggle_of_bd_clear hbd, backdoorOpen_eq]⟩

end Sys2Proof.Machine

/-! PROOFS. The DEACTIVATE event of spec/44_events.md (R192): the step that takes it, and its effect as one record. -/

namespace Sys2Proof.Machine

/-- A loaded block's step on DEACTIVATE is the handler on the state whose inbox has lost that event (R192, R211). -/
theorem step_eq_deactivate {s : State} {rest : List Event} (loaded : s.imageLoaded = true)
    (hin : s.inbox = .deactivate :: rest) : step s = .next (deactivate { s with inbox := rest }) := by
  simp [step, takeEvent, hin, handleEvent, loaded]

/-- DEACTIVATE as one record. DIRTY ends at 0 either way, so only the persist depends on it (R192). -/
theorem deactivate_eq (s : State) :
    deactivate s =
      { s with
        auth := false, bd := false, dirty := false, lp := locks s.params s.img false,
        outbox := s.outbox ++ (if s.dirty then [.persist s.img] else []) } := by
  rcases deactivate_cases s with ⟨clean, h⟩ | ⟨isDirty, h⟩
  · simp [h, clean]
  · simp [h, isDirty]

/-- Settles O14: the step is the handler, and the handler is the one record of `deactivate_eq`. -/
theorem deactivateResetsTheSession : Obligations.DeactivateResetsTheSession := by
  intro s rest loaded hin
  rw [step_eq_deactivate loaded hin, deactivate_eq]

end Sys2Proof.Machine

/-! PROOFS. Decoding against encoding (spec/30_encoding.md R82 to R90): what the operands of one code decode to, said once,
and from it both round trips, the bytes past a format's length (R85) and the frames too short for it (R86, R87). -/

namespace Sys2Proof

/-- A frame that begins with the byte of a code is decoded by that code's format (R88, R90). -/
theorem decode_codeByte (k : Code) (ops : List Byte) : decode (codeByte k :: ops) = decodeOperands k ops :=
  decode_cons_known _ _ _ (codeOf_codeByte k)

/-- FAST_READ is well-formed for every pair but BD_TOGGLE's (R89). -/
theorem wf_fastRead_iff (a b : Byte) : (Instr.fastRead a b).wf = true ↔ ¬(a = 133#8 ∧ b = 134#8) := by
  simp [Instr.wf, imp_iff_not_or]

/-- The encoding of `i` and what follows it make up the frame of the code `k` with the bytes `ops` after it. -/
def EncodingBegins (k : Code) (ops : List Byte) (i : Instr) : Prop :=
  i.wf = true ∧ (encode i).length = requiredLength k ∧ ∃ rest, codeByte k :: ops = encode i ++ rest

/-- What the bytes after a code decode to: too few are SHORT, else they begin with the operands of one instruction. -/
theorem decodeOperands_cases (k : Code) (ops : List Byte) :
    (ops.length + 1 < requiredLength k ∧ decodeOperands k ops = .short) ∨
    ∃ i, decodeOperands k ops = .instr i ∧ EncodingBegins k ops i := by
  cases k with
  | read =>
    match ops with
    | p :: rest => exact .inr ⟨.read p, rfl, rfl, rfl, rest, rfl⟩
    | [] => exact .inl ⟨by decide, rfl⟩
  | write =>
    match ops with
    | p :: d0 :: d1 :: d2 :: d3 :: rest => exact .inr ⟨.write p d0 d1 d2 d3, rfl, rfl, rfl, rest, rfl⟩
    | [] | [_] | [_, _] | [_, _, _] | [_, _, _, _] => exact .inl ⟨by simp [requiredLength], rfl⟩
  | getVersion => exact .inr ⟨.getVersion, rfl, rfl, rfl, ops, rfl⟩
  | fastRead =>
    match ops with
    | a :: b :: rest =>
      have hd : decodeOperands .fastRead (a :: b :: rest) =
        if a = 133#8 ∧ b = 134#8 then .instr .bdToggle else .instr (.fastRead a b) := rfl
      by_cases toggle : a = 133#8 ∧ b = 134#8
      · rw [if_pos toggle] at hd
        obtain ⟨rfl, rfl⟩ := toggle
        exact .inr ⟨.bdToggle, hd, rfl, rfl, rest, rfl⟩
      · rw [if_neg toggle] at hd
        exact .inr ⟨.fastRead a b, hd, (wf_fastRead_iff a b).2 toggle, rfl, rest, rfl⟩
    | [] | [_] => exact .inl ⟨by simp [requiredLength], rfl⟩
  | pwdAuth =>
    match ops with
    | k0 :: k1 :: k2 :: k3 :: rest => exact .inr ⟨.pwdAuth k0 k1 k2 k3, rfl, rfl, rfl, rest, rfl⟩
    | [] | [_] | [_, _] | [_, _, _] => exact .inl ⟨by simp [requiredLength], rfl⟩
  | readSig =>
    match ops with
    | a :: rest => exact .inr ⟨.readSig a, rfl, rfl, rfl, rest, rfl⟩
    | [] => exact .inl ⟨by decide, rfl⟩
  | restartNfc => exact .inr ⟨.restartNfc, rfl, rfl, rfl, ops, rfl⟩
  | keepalive1A => exact .inr ⟨.keepalive1A, rfl, rfl, rfl, ops, rfl⟩
  | keepalive93 => exact .inr ⟨.keepalive93, rfl, rfl, rfl, ops, rfl⟩

/-- Only a frame of a known code decodes to an instruction, and it begins with that instruction's encoding. -/
theorem encodingBegins_of_decode {f : List Byte} {i : Instr} (h : decode f = .instr i) :
    ∃ k ops, f = codeByte k :: ops ∧ EncodingBegins k ops i := by
  cases f with
  | nil => cases h
  | cons c ops =>
    cases hk : codeOf c with
    | none => rw [decode_cons_unknown c ops hk] at h; cases h
    | some k =>
      obtain rfl := (codeOf_eq_some c k).1 hk
      rw [decode_codeByte] at h
      rcases decodeOperands_cases k ops with ⟨_, hs⟩ | ⟨j, hj, hb⟩
      · rw [hs] at h; cases h
      · rw [hj] at h; cases h; exact ⟨k, ops, rfl, hb⟩

/-- Settles O1: the code byte picks the format, whose operands are the encoded ones; the one pair of FAST_READ that would be
read as BD_TOGGLE is ill-formed. -/
theorem decodeOfEncodeWithTrailingBytes : Obligations.DecodeOfEncodeWithTrailingBytes := by
  intro i rest wf
  cases i with
  | read p => exact decode_codeByte .read (p :: rest)
  | write p d0 d1 d2 d3 => exact decode_codeByte .write (p :: d0 :: d1 :: d2 :: d3 :: rest)
  | getVersion => exact decode_codeByte .getVersion rest
  | bdToggle => exact (decode_fastRead_code 133#8 134#8 rest).trans (if_pos ⟨rfl, rfl⟩)
  | fastRead a b =>
    exact (decode_fastRead_code a b rest).trans (if_neg ((wf_fastRead_iff a b).1 wf))
  | pwdAuth k0 k1 k2 k3 => exact decode_codeByte .pwdAuth (k0 :: k1 :: k2 :: k3 :: rest)
  | readSig a => exact decode_codeByte .readSig (a :: rest)
  | restartNfc => exact decode_codeByte .restartNfc rest
  | keepalive1A => exact decode_codeByte .keepalive1A rest
  | keepalive93 => exact decode_codeByte .keepalive93 rest

/-- An instruction's own frame decodes to it: no bytes follow. -/
theorem decode_encode {i : Instr} (wf : i.wf = true) : decode (encode i) = .instr i := by
  simpa using decodeOfEncodeWithTrailingBytes i [] wf

/-- Settles O2: the frame is that of a known code, and `decodeOperands_cases` says how it begins. -/
theorem decodedFramesBeginWithTheEncoding : Obligations.DecodedFramesBeginWithTheEncoding := by
  intro f i h
  obtain ⟨k, ops, rfl, wf, _, rest, hf⟩ := encodingBegins_of_decode h
  exact ⟨wf, rest, hf.symm⟩

/-- Settles O3: the required bytes are exactly the encoding the frame begins with. -/
theorem longFramesDecodeFromTheirRequiredBytes : Obligations.LongFramesDecodeFromTheirRequiredBytes := by
  intro k ops long
  rcases decodeOperands_cases k ops with ⟨short, _⟩ | ⟨i, hd, wf, len, rest, hf⟩
  · exact absurd short (Nat.not_lt.2 long)
  · have required : (codeByte k :: ops).take (requiredLength k) = encode i := by
      rw [hf, ← len, List.take_left]
    exact ⟨i, required ▸ decode_encode wf, (decode_codeByte k ops).trans hd⟩

/-- A frame of a known code below its format's length is SHORT (R86): it has no room for an encoding of that length. -/
theorem decode_of_length_lt {k : Code} {ops : List Byte} (short : (codeByte k :: ops).length < requiredLength k) :
    decode (codeByte k :: ops) = .short := by
  rcases decodeOperands_cases k ops with ⟨_, hs⟩ | ⟨i, _, _, len, rest, hf⟩
  · exact (decode_codeByte k ops).trans hs
  · rw [hf, List.length_append, len] at short
    omega

end Sys2Proof

namespace Sys2Proof.Machine

/-- A SHORT frame is handled by its rejection (R86). -/
theorem handleFrame_of_short {f : List Byte} (hd : decode f = .short) (s : State) :
    handleFrame f s = .next (reject .short s) := by
  simp [handleFrame, hd]

/-- Settles O4: `decode_of_length_lt`, and the rejection SHORT by the two values of its policy. -/
theorem shortFramesAreAnsweredByPolicy : Obligations.ShortFramesAreAnsweredByPolicy := by
  refine ⟨decode_nil, fun k ops short => decode_of_length_lt short, fun s f rest loaded hin hd => ?_⟩
  rw [step_eq_handleFrame loaded hin, handleFrame_of_short hd]
  cases policy : s.params.shortFramePolicy with
  | nak => simp [reject, rejectionResponse, policy, respond, emit]
  | noSend => simp [reject, rejectionResponse, policy]

/-- Settles O7: the frames are encodings, one of them with a byte after it. -/
theorem sampleFramesDecode : Obligations.SampleFramesDecode :=
  ⟨decode_encode (i := .read 4#8) rfl, decode_encode (i := .write 4#8 0xDE#8 0xAD#8 0xBE#8 0xEF#8) rfl,
    decode_encode (i := .pwdAuth 0x11#8 0x22#8 0x33#8 0x44#8) rfl,
    decodeOfEncodeWithTrailingBytes .keepalive93 [0x20#8] rfl, decode_encode (i := .bdToggle) rfl⟩

end Sys2Proof.Machine

/-! PROOFS. The step on each event (spec/00_scope.md R13; spec/44_events.md; spec/70_reset_and_hazards.md R240, R241), with
the image a HOST_LOAD leaves (R196) and the registers of State.reset. -/

namespace Sys2Proof.Machine
open Sys2Proof.Config

/-- A step handles the oldest waiting event, on the state whose inbox has lost it. -/
theorem step_eq_handleEvent {s : State} {e : Event} {rest : List Event} (hin : s.inbox = e :: rest) :
    step s = handleEvent e { s with inbox := rest } := by
  simp [step, takeEvent, hin]

/-- A frame that decodes to an instruction is handled by it (R13). -/
theorem handleFrame_of_instr {f : List Byte} {i : Instr} (hd : decode f = .instr i) (s : State) :
    handleFrame f s = exec i s := by
  simp [handleFrame, hd]

/-- Settles O8: a loaded block handles the frame, and the frame is the instruction. -/
theorem stepRunsTheDecodedInstr : Obligations.StepRunsTheDecodedInstr := by
  intro s f rest i loaded hin hd
  rw [step_eq_handleFrame loaded hin, handleFrame_of_instr hd]

/-- A table word that decodes is laid out as a frame that does (log 13). -/
theorem decode_frameOfWord {nbits w : Nat} {i : Instr} (h : decodeTableWord nbits w = some i) :
    decode (frameOfWord nbits w) = .instr i := by
  unfold decodeTableWord at h
  split at h
  · next hd => cases h; exact hd
  · cases h
  · cases h

/-- Placing a frame sees to it that an image is loaded (log 12). -/
theorem withSomeImage_imageLoaded (s : State) : (withSomeImage s).imageLoaded = true := by
  unfold withSomeImage
  split
  · assumption
  · rfl

/-- Settles O9: the placed word is the frame at the head of a loaded block's inbox. -/
theorem placedTableWordRunsNext : Obligations.PlacedTableWordRunsNext := by
  intro s nbits w i hw
  exact ⟨stepRunsTheDecodedInstr _ _ s.inbox i (withSomeImage_imageLoaded s) rfl (decode_frameOfWord hw),
    fun loaded => if_pos loaded⟩

/-- Settles O10: there is nothing to take. -/
theorem stepWithoutEventWaits : Obligations.StepWithoutEventWaits := by
  intro s hin
  simp [step, takeEvent, hin]

/-- Settles O11: every handler but HOST_LOAD's checks that an image is loaded. -/
theorem noEventStepsBeforeTheFirstLoad : Obligations.NoEventStepsBeforeTheFirstLoad := by
  intro s e rest unloaded hin notLoad
  rw [step_eq_handleEvent hin]
  cases e with
  | hostLoad img => exact absurd rfl (notLoad img)
  | frame f => simp [handleEvent, unloaded]
  | activate => simp [handleEvent, unloaded]
  | deactivate => simp [handleEvent, unloaded]
  | hostRead => simp [handleEvent, unloaded]

/-- With no byte listed and PER_BIT, LOCKS is the UID block. -/
theorem locks_reset_iff {p : Nat} (hp : p < 143) : (locks defaultParams [] false).getLsbD p = true ↔ p < 2 := by
  rw [locksAreTheUidStaticAndDynamicPages defaultParams [] false p hp]
  simp [defaultParams]
  omega

/-- Settles O12: the fields of State.reset, and its LP by `locks_reset_iff`. -/
theorem resetHoldsTheResetValues : Obligations.ResetHoldsTheResetValues :=
  ⟨rfl, rfl, rfl, rfl, rfl, rfl, rfl, rfl, fun _ hp => locks_reset_iff hp⟩

/-- Settles O13: the handler of ACTIVATE changes nothing. -/
theorem activateDoesNothing : Obligations.ActivateDoesNothing := by
  intro s rest loaded hin
  simp [step_eq_handleEvent hin, handleEvent, loaded, activate]

/-- Settles O16: the handler of HOST_READ emits the image. -/
theorem hostReadHandsOutTheImage : Obligations.HostReadHandsOutTheImage := by
  intro s rest loaded hin
  simp [step_eq_handleEvent hin, handleEvent, loaded, hostRead, emit]

/-- A loaded image reads as the host's bytes (R196). -/
theorem Memory.read_ofImage (img : Vector Byte 572) {a : Nat} (ha : a < 572) :
    Memory.read (Memory.ofImage img) a = img[a] := by
  rw [Memory.ofImage, Memory.read_ofBytesFrom, if_pos (Nat.zero_le a)]
  simp [List.getD, ha]

/-- Settles O15: the load is one record, whose image is the host's after REPAIR. -/
theorem hostLoadInstallsTheRepairedImage : Obligations.HostLoadInstallsTheRepairedImage := by
  intro s img rest hin
  refine ⟨_, step_eq_handleEvent hin, rfl, rfl, rfl, rfl, rfl, rfl, rfl, rfl,
    Memory.wf_repair _ (Memory.wf_ofImage img), fun a ha => ?_⟩
  show Memory.read (Memory.repair (Memory.ofImage img)) a = _
  by_cases h3 : a = 3
  · subst h3
    simp [Memory.read_ofImage]
  · rw [Memory.read_repair, if_neg h3, if_neg h3]
    simp [Memory.read_ofImage, ha]

end Sys2Proof.Machine

/-! PROOFS. The read commands of spec/41_read_commands.md. Each answers one response and changes nothing; the response is a
function of the parameters, BD and the bytes that may be read, which are all bytes of the image but, outside BACKDOOR, those
of the PWD and PACK pages (R132). -/

namespace Sys2Proof.Machine
open Sys2Proof.Config

/-! ## The bytes that may be read -/

/-- The byte a read of offset `a` of the image gives: zero in pages 133 and 134 outside BACKDOOR, else as stored (R132). -/
def visibleByte (s : State) (a : Nat) : Byte :=
  if s.bd = false ∧ 532 ≤ a ∧ a ≤ 539 then 0x00#8 else Memory.read s.img a

/-- Nothing is masked outside offsets 532 to 539. -/
theorem visibleByte_of_outside (s : State) {a : Nat} (h : ¬(532 ≤ a ∧ a ≤ 539)) : visibleByte s a = Memory.read s.img a :=
  if_neg fun hm => h hm.2

/-- Offsets 532 to 539 are the bytes of pages 133 and 134. -/
theorem page_masked_iff (a : Nat) : (a / 4 = 133 ∨ a / 4 = 134) ↔ 532 ≤ a ∧ a ≤ 539 := by omega

/-- Inside the image a window's byte is the visible one. -/
theorem windowByte_inside (s : State) {a : Nat} (h : a < 572) : windowByte s a = [visibleByte s a] := by
  rw [windowByte_cases, if_neg (Nat.not_le.2 h), visibleByte]
  simp only [page_masked_iff]
  split <;> rfl

/-- The window of a page from 0 to 139 lies in the image: 16 visible bytes. -/
theorem readWindow_inside (s : State) {p : Nat} (hp : p ≤ 139) :
    readWindow s p = (List.range 16).map fun i => visibleByte s (4 * p + i) := by
  rw [readWindow, List.map_eq_flatMap]
  refine List.flatMap_congr fun i hi => windowByte_inside s ?_
  have := List.mem_range.1 hi
  simp only [pageOffset]
  omega

/-- A page of a FAST_READ is its four visible bytes. -/
theorem fastReadPage_eq (s : State) {q : Nat} (hq : q ≤ 142) :
    fastReadPage s q = (List.range 4).map fun i => visibleByte s (4 * q + i) := by
  rw [fastReadPage_cases s q hq]
  have inPage {i : Nat} (hi : i ∈ List.range 4) : i < 4 := List.mem_range.1 hi
  split
  · next masked =>
    calc [0x00#8, 0x00#8, 0x00#8, 0x00#8] = (List.range 4).map (fun _ => 0x00#8) := rfl
      _ = _ := List.map_congr_left fun i hi =>
        (if_pos ⟨masked.1, by have := inPage hi; omega⟩).symm
  · next unmasked =>
    calc _ = (List.range 4).map (fun i => Memory.read s.img (4 * q + i)) := rfl
      _ = _ := List.map_congr_left fun i hi =>
        (if_neg fun h => unmasked ⟨h.1, by have := inPage hi; omega⟩).symm

/-- Rows of four, put one after the other, are one run of numbers. -/
theorem flatMap_rows_of_four {α : Type} (f : Nat → α) (n : Nat) :
    ((List.range n).flatMap fun j => (List.range 4).map fun i => f (4 * j + i)) = (List.range (4 * n)).map f := by
  induction n with
  | zero => rfl
  | succ n ih =>
    rw [List.range_succ (n := n), List.flatMap_append, ih, Nat.mul_succ, List.range_add, List.map_append, List.map_map]
    simp [Function.comp_def]

/-- A FAST_READ range inside the image: its visible bytes in ascending order (R62, R135). -/
theorem fastReadRange_inside (s : State) (a : Nat) {b : Nat} (hb : b ≤ 142) :
    fastReadRange s a b = (List.range (4 * (b + 1 - a))).map fun i => visibleByte s (4 * a + i) := by
  rw [← flatMap_rows_of_four, fastReadRange]
  refine List.flatMap_congr fun j hj => ?_
  have := List.mem_range.1 hj
  rw [fastReadPage_eq s (by omega)]
  simp only [Nat.mul_add, Nat.add_assoc]

/-- The signature, in every mode (R140). -/
theorem memRead_signature (ps : Params) (m : Memory) :
    memRead ps m sigOffset sigBytes = (List.range 32).map fun i => Memory.read m (540 + i) :=
  memRead_inside ps m 540 32 (by decide)

/-! ## The responses -/

/-- What READ answers: NAK, or its window (R130). -/
def readResponse (p : Byte) (s : State) : List Byte :=
  if readCeil s < p.toNat ∨ (s.bd = false ∧ s.params.pwdReadPolicy = .nakStart ∧ (p.toNat = 133 ∨ p.toNat = 134)) then
    [0x00#8]
  else readWindow s p.toNat

/-- What FAST_READ answers: NAK, or its range (R135). -/
def fastReadResponse (a b : Byte) (s : State) : List Byte :=
  if b.toNat < a.toNat ∨ fastReadCeil s < b.toNat then [0x00#8] else fastReadRange s a.toNat b.toNat

/-- READ responds and changes nothing. -/
theorem exec_read (p : Byte) (s : State) : exec (.read p) s = .next (respond (readResponse p s) s) := by
  show execRead p s = _
  have pwdPage : (!s.bd && s.params.pwdReadPolicy == .nakStart && isPwdPage (pageNum p)) = true ↔
      s.bd = false ∧ s.params.pwdReadPolicy = .nakStart ∧ (p.toNat = 133 ∨ p.toNat = 134) := by
    simp [isPwdPage, pageNum, and_assoc]
  unfold execRead readResponse
  by_cases range : readCeil s < p.toNat
  · rw [if_pos (show pageNum p > readCeil s from range), if_pos (.inl range)]
    rfl
  · rw [if_neg (show ¬pageNum p > readCeil s from range)]
    simp only [pwdPage, or_iff_right range]
    split <;> rfl

/-- FAST_READ responds and changes nothing. -/
theorem exec_fastRead (a b : Byte) (s : State) :
    exec (.fastRead a b) s = .next (respond (fastReadResponse a b s) s) := by
  show execFastRead a b s = _
  unfold execFastRead fastReadResponse
  by_cases range : fastReadCeil s < b.toNat
  · rw [if_pos (show pageNum b > fastReadCeil s from range), if_pos (.inr range)]
    rfl
  · rw [if_neg (show ¬pageNum b > fastReadCeil s from range)]
    simp only [or_iff_left range]
    split
    · next order => rw [if_pos (show b.toNat < a.toNat from order)]; rfl
    · next order => rw [if_neg (show ¬b.toNat < a.toNat from order)]; rfl

/-- Settles O17: the ceiling is the lower of the parameter and 142, and each byte of the window is `windowByte_cases`. -/
theorem readAnswersItsWindowOrNak : Obligations.ReadAnswersItsWindowOrNak := by
  intro p s
  refine ⟨readResponse p s, exec_read p s, ?_⟩
  have ceil : readCeil s < p.toNat ↔
      142 < p.toNat ∨ (if s.bd then s.params.readCeilBackdoor.val else s.params.readCeilNormal.val) < p.toNat := by
    rw [← not_le, le_readCeil_iff, not_and_or, not_le, not_le, or_comm]
  simp only [readResponse, ceil, or_assoc]
  exact if_congr Iff.rfl rfl (List.flatMap_congr fun i _ => windowByte_cases s (4 * p.toNat + i))

/-- Settles O19: below page 140 the window lies in the image. -/
theorem readGivesTheStoredBytesButThePassword : Obligations.ReadGivesTheStoredBytesButThePassword := by
  intro p s inRange inside policy
  have accepted : readResponse p s = readWindow s p.toNat := by
    refine if_neg ?_
    rintro (high | ⟨clear, nakStart, page⟩)
    · exact absurd inRange (Nat.not_le.2 high)
    · rcases policy with set | mask | ⟨h133, h134⟩
      · simp [clear] at set
      · simp [nakStart] at mask
      · exact page.elim h133 h134
  rw [readWindow_inside s inside] at accepted
  refine ⟨_, exec_read p s, by simp [accepted], fun i hi => ?_⟩
  simp [accepted, hi, visibleByte]

/-- Settles O20: the response is the range, page by page, which never leaves the image. -/
theorem fastReadAnswersItsRangeOrNak : Obligations.FastReadAnswersItsRangeOrNak := by
  intro a b s _
  refine ⟨fastReadResponse a b s, exec_fastRead a b s, ?_⟩
  unfold fastReadResponse
  by_cases nak : b.toNat < a.toNat ∨ fastReadCeil s < b.toNat
  · exact (if_pos nak).trans (if_pos nak).symm
  · have inside : b.toNat ≤ 142 := (Nat.not_lt.1 fun h => nak (.inr h)).trans (fastReadCeil_le s)
    have pages : fastReadRange s a.toNat b.toNat = _ := List.flatMap_congr fun j hj =>
      fastReadPage_cases s (a.toNat + j) (by have := List.mem_range.1 hj; omega)
    exact (if_neg nak).trans (pages.trans (if_neg nak).symm)

/-- Settles O21: within the ceiling the range lies in the image. -/
theorem fastReadGivesTheStoredBytesButThePassword : Obligations.FastReadGivesTheStoredBytesButThePassword := by
  intro a b s _ order inRange
  have accepted : fastReadResponse a b s = fastReadRange s a.toNat b.toNat :=
    if_neg fun h => h.elim (Nat.not_lt.2 order) (Nat.not_lt.2 inRange)
  rw [fastReadRange_inside s _ (inRange.trans (fastReadCeil_le s)), Nat.sub_add_comm order] at accepted
  refine ⟨_, exec_fastRead a b s, by simp [accepted], fun i hi => ?_⟩
  simp [accepted, hi, visibleByte]

/-- Settles O22: READ_SIG reads the signature, whatever its argument. -/
theorem readSigGivesTheSignature : Obligations.ReadSigGivesTheSignature := by
  intro a s
  rw [← memRead_signature s.params s.img]
  rfl

/-- Settles O23: the length is the type's. -/
theorem getVersionGivesTheVersionBytes : Obligations.GetVersionGivesTheVersionBytes :=
  fun s => ⟨s.params.versionBytes.length_toList, rfl⟩

/-! ## What a response depends on -/

/-- The four read commands. -/
def IsReadCommand (i : Instr) : Prop :=
  (∃ p, i = .read p) ∨ (∃ a b, i = .fastRead a b) ∨ (∃ a, i = .readSig a) ∨ i = .getVersion

/-- Two states a reader cannot tell apart: the same parameters, the same BD and the same visible bytes. -/
structure LookAlike (s s' : State) : Prop where
  params : s'.params = s.params
  bd : s'.bd = s.bd
  bytes : ∀ a, visibleByte s' a = visibleByte s a

/-- A window of READ has the same bytes in look-alikes, past the image too. -/
theorem LookAlike.windowByte_eq {s s' : State} (h : LookAlike s s') {a : Nat} (ha : a < 584) :
    windowByte s' a = windowByte s a := by
  obtain ⟨params, bd, bytes⟩ := h
  by_cases inside : a < 572
  · rw [windowByte_inside s inside, windowByte_inside s' inside, bytes]
  · -- a byte past the image wraps to one of the first 12
    have wrapped : Memory.read s'.img (a - 572) = Memory.read s.img (a - 572) := by
      rw [← visibleByte_of_outside s (by omega), ← visibleByte_of_outside s' (by omega), bytes]
    rw [windowByte_cases, windowByte_cases, params, bd, wrapped, if_pos (Nat.not_lt.1 inside),
      if_pos (Nat.not_lt.1 inside)]

/-- READ does not tell look-alikes apart: no window passes offset 583 (R84, R131). -/
theorem LookAlike.readResponse_eq {s s' : State} (h : LookAlike s s') (p : Byte) : readResponse p s' = readResponse p s := by
  have window (hp : p.toNat ≤ 142) : readWindow s' p.toNat = readWindow s p.toNat :=
    List.flatMap_congr fun i hi => h.windowByte_eq (by
      have := List.mem_range.1 hi
      simp only [pageOffset]
      omega)
  have ceil : readCeil s' = readCeil s := by simp only [readCeil, h.params, h.bd]
  unfold readResponse
  rw [ceil, h.params, h.bd]
  split
  · rfl
  · next accepted =>
    obtain ⟨_, inside⟩ := (le_readCeil_iff s p.toNat).1 (Nat.not_lt.1 fun high => accepted (.inl high))
    exact window inside

/-- FAST_READ does not tell look-alikes apart: its range lies in the image. -/
theorem LookAlike.fastReadResponse_eq {s s' : State} (h : LookAlike s s') (a b : Byte) :
    fastReadResponse a b s' = fastReadResponse a b s := by
  obtain ⟨params, bd, bytes⟩ := h
  have ceil : fastReadCeil s' = fastReadCeil s := by simp only [fastReadCeil, params, bd]
  unfold fastReadResponse
  rw [ceil]
  split
  · rfl
  · next accepted =>
    have inside : b.toNat ≤ 142 := (Nat.not_lt.1 fun high => accepted (.inr high)).trans (fastReadCeil_le s)
    simp only [fastReadRange_inside _ _ inside, bytes]

/-- READ_SIG does not tell look-alikes apart: the signature is not masked. -/
theorem LookAlike.signature_eq {s s' : State} (h : LookAlike s s') :
    memRead s'.params s'.img sigOffset sigBytes = memRead s.params s.img sigOffset sigBytes := by
  rw [memRead_signature, memRead_signature]
  refine List.map_congr_left fun i _ => ?_
  rw [← visibleByte_of_outside s (by omega), ← visibleByte_of_outside s' (by omega), h.bytes]

/-- A read command answers one response and changes nothing, and in states that look alike the response is the same. -/
theorem IsReadCommand.exec_eq {i : Instr} (hi : IsReadCommand i) : ∃ response : State → List Byte,
    (∀ s, exec i s = .next (respond (response s) s)) ∧ ∀ s s', LookAlike s s' → response s' = response s := by
  rcases hi with ⟨p, rfl⟩ | ⟨a, b, rfl⟩ | ⟨a, rfl⟩ | rfl
  · exact ⟨readResponse p, exec_read p, fun _ _ h => h.readResponse_eq p⟩
  · exact ⟨fastReadResponse a b, exec_fastRead a b, fun _ _ h => h.fastReadResponse_eq a b⟩
  · exact ⟨fun s => memRead s.params s.img sigOffset sigBytes, fun _ => rfl, fun _ _ h => h.signature_eq⟩
  · exact ⟨fun s => s.params.versionBytes.toList, fun _ => rfl, fun _ _ h => congrArg (·.versionBytes.toList) h.params⟩

/-- Settles O24: the outputs are nothing a reader sees, so the response does not depend on them. -/
theorem readCommandsAreIdempotent : Obligations.ReadCommandsAreIdempotent := by
  intro i s _ hi
  obtain ⟨response, exec_eq, congr⟩ := IsReadCommand.exec_eq hi
  refine ⟨response s, fun earlier => ?_⟩
  have alike : LookAlike s { s with outbox := earlier } := ⟨rfl, rfl, fun _ => rfl⟩
  rw [exec_eq, congr _ _ alike]
  rfl

/-- Outside BACKDOOR two images that differ in offsets 532 to 539 only look alike. -/
theorem lookAlike_of_agree {s : State} {m : Memory} (hbd : s.bd = false)
    (agree : ∀ a, ¬(532 ≤ a ∧ a ≤ 539) → Memory.read m a = Memory.read s.img a) : LookAlike s { s with img := m } := by
  refine ⟨rfl, rfl, fun a => ?_⟩
  by_cases masked : 532 ≤ a ∧ a ≤ 539
  · simp [visibleByte, hbd, masked]
  · rw [visibleByte_of_outside _ masked, visibleByte_of_outside _ masked, agree a masked]

/-- Settles O25: the two states look alike. -/
theorem passwordPagesDoNotLeakThroughReads : Obligations.PasswordPagesDoNotLeakThroughReads := by
  intro i s m hbd _ hi agree
  obtain ⟨response, exec_eq, congr⟩ := IsReadCommand.exec_eq hi
  refine ⟨response s, exec_eq s, ?_⟩
  rw [exec_eq, congr _ _ (lookAlike_of_agree hbd agree)]
  rfl

end Sys2Proof.Machine

/-! PROOFS. WRITE turned away (spec/42_write_command.md R150 to R153), page operands beyond the image (R84), and WRITE where
the locks do not count: in BACKDOOR (R153) and, for pages 16 to 129, after a password match (R166). -/

namespace Sys2Proof.Machine
open Sys2Proof.Config

/-- A WRITE that fails the range check or the lock check is answered NAK and changes nothing (R150). -/
theorem exec_write_of_rejected (p d0 d1 d2 d3 : Byte) {s : State}
    (h : writeCeil s < p.toNat ∨ (s.bd = false ∧ s.lp.getLsbD p.toNat = true)) :
    exec (.write p d0 d1 d2 d3) s = .next { s with outbox := s.outbox ++ [.respond [0x00#8]] } := by
  rcases execWrite_cases p d0 d1 d2 d3 s with nak | ⟨inRange, unlocked, _⟩
  · exact nak
  · rcases h with high | ⟨clear, locked⟩
    · exact absurd inRange (Nat.not_le.2 high)
    · rcases unlocked with set | free
      · simp [clear] at set
      · simp [locked] at free

/-- WRITE reaches page 134 in every mode (R152). -/
theorem le_writeCeil (s : State) : 134 ≤ writeCeil s := by
  unfold writeCeil
  split
  · exact s.params.writeCeilBackdoor.property.1
  · decide

/-- Settles O27: each of the four causes fails one of WRITE's two checks. -/
theorem rejectedWriteIsNakAndChangesNothing : Obligations.RejectedWriteIsNakAndChangesNothing := by
  intro p d0 d1 d2 d3 s h
  refine exec_write_of_rejected p d0 d1 d2 d3 ?_
  rcases h with ⟨clear, high⟩ | ⟨set, high⟩ | beyond | locked
  · exact .inl (by simpa [writeCeil, clear] using high)
  · exact .inl (by simpa [writeCeil, set] using high)
  · exact .inl ((writeCeil_le s).trans_lt beyond)
  · exact .inr locked

/-- Settles O28: in BACKDOOR the ceiling alone decides, and neither it nor the store reads LP. -/
theorem backdoorWriteIgnoresTheLocks : Obligations.BackdoorWriteIgnoresTheLocks := by
  intro p d0 d1 d2 d3 s l hbd
  by_cases inRange : p.toNat ≤ writeCeil s
  · exact ⟨_, exec_write_of_accepted p d0 d1 d2 d3 inRange (.inl hbd),
      exec_write_of_accepted p d0 d1 d2 d3 (s := { s with lp := l }) inRange (.inl hbd)⟩
  · have high : writeCeil s < p.toNat := Nat.not_le.1 inRange
    exact ⟨_, exec_write_of_rejected p d0 d1 d2 d3 (.inl high),
      exec_write_of_rejected p d0 d1 d2 d3 (s := { s with lp := l }) (.inl high)⟩

/-- Settles O18: the three ceilings are at most 142; a FAST_READ whose end is lower than its start fails on their order. -/
theorem pagesBeyondTheImageAreNak : Obligations.PagesBeyondTheImageAreNak := by
  intro s
  refine ⟨fun p hp => ?_, fun a b hab => ?_, fun p d0 d1 d2 d3 hp => ?_⟩
  · have nak : readResponse p s = [0x00#8] := if_pos (.inl ((Nat.min_le_right _ 142).trans_lt hp))
    rw [exec_read, nak]
    rfl
  · have nak : fastReadResponse a b s = [0x00#8] := by
      have ceil := fastReadCeil_le s
      exact if_pos (by omega)
    rw [exec_fastRead, nak]
    rfl
  · exact exec_write_of_rejected p d0 d1 d2 d3 (.inl ((writeCeil_le s).trans_lt hp))

/-- Settles O32: LP after the match locks no page from 16 on, and such a page is overwritten. -/
theorem passwordMatchUnlocksTheDynamicPages : Obligations.PasswordMatchUnlocksTheDynamicPages := by
  intro k0 k1 k2 k3 p d0 d1 d2 d3 s hmatch hlo hhi
  have unlocked : (locks s.params s.img true).getLsbD p.toNat = false := by
    rw [← Bool.not_eq_true, locks_auth_iff s.params s.img (by omega)]
    exact fun h => absurd h.1 (Nat.not_lt.2 hlo)
  have inRange : p.toNat ≤ writeCeil s := (show p.toNat ≤ 134 by omega).trans (le_writeCeil s)
  refine ⟨_, _, exec_pwdAuth_of_match hmatch, exec_write_of_accepted p d0 d1 d2 d3 inRange (.inr unlocked), rfl, rfl,
    fun i hi => ?_⟩
  rw [writtenImage_overwrites (.inr ⟨by omega, by omega⟩)]
  exact Memory.read_writeBytes_add _ _ _ hi

end Sys2Proof.Machine

/-! PROOFS. The other session commands of spec/43_session_commands.md as one record each, and the lock engine's small facts
(spec/40_lock_engine.md R110 to R119). -/

namespace Sys2Proof.Machine
open Sys2Proof.Config

/-- A read of two bytes from the image's last offset: the second one is past the image (R11; log 5). -/
theorem memRead_last (ps : Params) (m : Memory) : memRead ps m 571 2 = Memory.read m 571 :: readByte ps m 572 := by
  rw [memRead, List.range_succ, List.range_one, List.flatMap_append, List.flatMap_singleton, List.flatMap_singleton,
    readByte_inside ps m _ (by decide)]
  rfl

/-- Settles O30: the PACK read is `memRead_last`, whose second byte is the tail policy's. -/
theorem packAtTheLastOffset : Obligations.PackAtTheLastOffset := by
  intro k0 k1 k2 k3 s hmatch last
  rw [exec_pwdAuth_of_match hmatch, last, memRead_last]
  cases h : s.params.readTailPolicy <;> simp [readByte, h]

/-- Settles O31: a PWD_AUTH that does not match is answered by its rejection. -/
theorem passwordMismatchChangesNothing : Obligations.PasswordMismatchChangesNothing := by
  intro k0 k1 k2 k3 s mismatch
  rcases execPwdAuth_cases k0 k1 k2 k3 s with ⟨hmatch, _⟩ | ⟨_, h⟩
  · exact absurd hmatch mismatch
  · exact h

/-- BD_TOGGLE in BACKDOOR is BD_CLOSE (R170). -/
theorem exec_bdToggle_of_bd_set {s : State} (hbd : s.bd = true) : exec .bdToggle s = .next (backdoorClose s) := by
  rcases execBdToggle_cases s with ⟨clear, _⟩ | ⟨_, h⟩
  · simp [hbd] at clear
  · exact h

/-- Settles O34: BD_CLOSE is the one record of `backdoorClose_eq`, with the repaired image. -/
theorem toggleClosesTheBackdoor : Obligations.ToggleClosesTheBackdoor := by
  intro s hbd
  refine ⟨Memory.repair s.img, ?_, checksumsMatch_repair s.img, fun _ h3 h8 => Memory.read_repair_of_ne s.img h3 h8⟩
  rw [exec_bdToggle_of_bd_set hbd, backdoorClose_eq, List.append_assoc]
  rfl

/-- The persist policy of RESTART_NFC as one record (R175). -/
theorem persistOnRestart_eq (s : State) :
    persistOnRestart s =
      { s with
        dirty := (if s.params.restartDirtyPolicy = .keep then s.dirty else false),
        outbox := s.outbox ++ (if s.params.restartDirtyPolicy = .persist ∧ s.dirty = true then [.persist s.img] else []) } := by
  unfold persistOnRestart
  cases s.params.restartDirtyPolicy with
  | keep => simp
  | persist =>
    by_cases isDirty : s.dirty = true
    · simp [isDirty, setDirty, persistImage, emit]
    · have clean : s = { s with dirty := false } := by rw [← Bool.eq_false_iff.2 isDirty]
      simpa [isDirty] using clean

/-- Settles O35: INIT, the persist policy and the restart's output, each one record. -/
theorem restartReinitialisesTheSession : Obligations.RestartReinitialisesTheSession := by
  intro s
  refine ⟨Memory.repair s.img, ?_, checksumsMatch_repair s.img, fun _ h3 h8 => Memory.read_repair_of_ne s.img h3 h8⟩
  show Host.Outcome.next (emit .nfcRestart (persistOnRestart (init s))) = _
  rw [persistOnRestart_eq, init_eq]
  rfl

/-- A keep-alive as one record (R178, R179). -/
theorem keepalive_eq (s : State) :
    keepalive s =
      { s with outbox := s.outbox ++ (if s.params.keepaliveResp = .emptyFrame then [.respond []] else []) } := by
  rcases keepalive_cases s with ⟨policy, h⟩ | ⟨policy, h⟩ <;> simp [h, policy]

/-- Settles O36: KEEPALIVE_1A is the keep-alive. -/
theorem keepalive1AAcknowledges : Obligations.Keepalive1AAcknowledges :=
  fun s => congrArg Host.Outcome.next (keepalive_eq s)

/-- Settles O37: KEEPALIVE_93 is the keep-alive. -/
theorem keepalive93Acknowledges : Obligations.Keepalive93Acknowledges :=
  fun s => congrArg Host.Outcome.next (keepalive_eq s)

/-- Settles O39: these pages are in none of the sources of LOCKS. -/
theorem somePagesAreNeverLocked : Obligations.SomePagesAreNeverLocked := by
  intro ps m auth p hp
  rw [← Bool.not_eq_true, locksAreTheUidStaticAndDynamicPages ps m auth p (by omega)]
  rintro (h | h | ⟨h, _⟩ | ⟨_, h, _⟩ | ⟨std, h, _⟩ | ⟨_, h, _, _⟩)
  · omega
  · omega
  · omega
  · omega
  · rcases hp with h2 | h3 | h130 | ⟨doc, _⟩
    · omega
    · omega
    · omega
    · simp [doc] at std
  · omega

/-- Settles O40: the three lock bytes are all LOCKS reads, and byte 520 counts only unauthenticated. -/
theorem locksReadOnlyTheLockBytes : Obligations.LocksReadOnlyTheLockBytes := by
  intro ps m m' auth h10 h11 h520
  rcases h520 with rfl | h520
  · simp [locks, lockedPages, dynPages, h10, h11]
  · exact locks_congr ps m m' auth h10 h11 h520

/-- Settles O42: the fields of INIT, whose image is a repaired one. -/
theorem initLeavesTheBlockLocked : Obligations.InitLeavesTheBlockLocked :=
  fun s => ⟨rfl, rfl, rfl, rfl, checksumsMatch_repair s.img, rfl, rfl, rfl⟩

end Sys2Proof.Machine

/-! PROOFS. The rules of the whole machine. Each is read off one lemma that says what a step does to the fields it speaks of:
the outputs (spec/00_scope.md R12), the image (spec/20_memory.md R60 to R69), the session bits AUTH and BD
(spec/10_state.md R37, R38) and DIRTY (R39). -/

namespace Sys2Proof.Machine
open Sys2Proof.Config

/-! ## The parameters, and that a loaded block does not stop -/

/-- No instruction changes the parameters or unloads the image (log 1). -/
theorem ExecEffect.params_imageLoaded {i : Instr} {s t : State} (he : ExecEffect i s t) :
    t.params = s.params ∧ t.imageLoaded = s.imageLoaded := by
  cases he <;> exact ⟨rfl, rfl⟩

/-- No step changes the parameters, and none unloads the image (R33, R241; log 1). -/
theorem step_params_imageLoaded {s t : State} (h : step s = .next t) :
    t.params = s.params ∧ (s.imageLoaded = true → t.imageLoaded = true) := by
  rcases step_cases h with ⟨_, rfl⟩ | ⟨img, rest, _, rfl⟩ | ⟨f, rest, i, _, _, he⟩ | ⟨f, rest, _, _, rfl | ⟨bytes, rfl⟩⟩ |
    ⟨rest, _, rfl⟩ | ⟨rest, _, rfl⟩ | ⟨rest, _, rfl⟩
  · exact ⟨rfl, id⟩
  · exact ⟨rfl, fun _ => rfl⟩
  · obtain ⟨params, imageLoaded⟩ := he.params_imageLoaded
    exact ⟨params, fun loaded => imageLoaded.trans loaded⟩
  · exact ⟨rfl, id⟩
  · exact ⟨rfl, id⟩
  · exact ⟨rfl, id⟩
  · rw [deactivate_eq]
    exact ⟨rfl, id⟩
  · exact ⟨rfl, id⟩

/-- The frame handler answers a next state for every frame (R90, R210). -/
theorem handleFrame_total (f : List Byte) (s : State) : ∃ t, handleFrame f s = .next t := by
  rcases handleFrame_cases f s with ⟨i, _, h⟩ | ⟨_, h⟩ | ⟨_, _, h⟩
  · obtain ⟨t, ht, _⟩ := exec_effect i s
    exact ⟨t, h.trans ht⟩
  · exact ⟨_, h⟩
  · exact ⟨_, h⟩

/-- A block with an image handles every event (R13, R211). -/
theorem handleEvent_total (e : Event) {s : State} (loaded : s.imageLoaded = true) : ∃ t, handleEvent e s = .next t := by
  cases e with
  | frame f => simpa [handleEvent, loaded] using handleFrame_total f s
  | activate => exact ⟨activate s, by simp [handleEvent, loaded]⟩
  | deactivate => exact ⟨deactivate s, by simp [handleEvent, loaded]⟩
  | hostLoad img => exact ⟨hostLoad img s, rfl⟩
  | hostRead => exact ⟨hostRead s, by simp [handleEvent, loaded]⟩

/-- Settles O54: a step waits or handles one event, and a loaded block handles every one. -/
theorem loadedBlockAlwaysSteps : Obligations.LoadedBlockAlwaysSteps := by
  refine ⟨fun s loaded => ?_, fun s t h => step_params_imageLoaded h⟩
  cases hin : s.inbox with
  | nil => exact ⟨s, stepWithoutEventWaits s hin⟩
  | cons e rest =>
    obtain ⟨t, ht⟩ := handleEvent_total e (s := { s with inbox := rest }) loaded
    exact ⟨t, (step_eq_handleEvent hin).trans ht⟩

/-! ## The outputs -/

/-- `t` has the outputs of `s` and new ones: at most one `respond`, and no snapshot but of `t`'s image (R12, R72). -/
def AppendsOutputs (s t : State) : Prop :=
  ∃ out : List Output, t.outbox = s.outbox ++ out ∧ (out.filter Output.isRespond).length ≤ 1 ∧
    ∀ m, (.persist m ∈ out ∨ .hostData m ∈ out) → m = t.img

/-- No new output. -/
theorem AppendsOutputs.of_eq {s t : State} (h : t.outbox = s.outbox) : AppendsOutputs s t :=
  ⟨[], by simpa using h, by simp, by simp⟩

/-- One `respond`. -/
theorem AppendsOutputs.of_respond {s t : State} {bytes : List Byte} (h : t.outbox = s.outbox ++ [.respond bytes]) :
    AppendsOutputs s t :=
  ⟨[.respond bytes], h, List.length_filter_le _ _, by simp⟩

/-- The outputs of one instruction. -/
theorem ExecEffect.appendsOutputs {i : Instr} {s t : State} (he : ExecEffect i s t) : AppendsOutputs s t := by
  cases he with
  | responds => exact .of_respond rfl
  | silent => exact .of_eq rfl
  | stores => exact .of_respond rfl
  | authenticates => exact .of_respond rfl
  | opens => exact .of_respond rfl
  | closes =>
    exact ⟨[.respond s.params.bdDeauthSig, .persist (Memory.repair s.img)], List.append_assoc ..,
      Nat.le_refl 1, by simp⟩
  | restarts => exact ⟨[.nfcRestart], rfl, List.length_filter_le _ _, by simp⟩
  | restartsPersisting =>
    exact ⟨[.persist (Memory.repair s.img), .nfcRestart], List.append_assoc .., Nat.zero_le 1, by simp⟩

/-- The outputs of DEACTIVATE: a persist of its image, if any (R192). -/
theorem deactivate_appendsOutputs (s : State) : AppendsOutputs s (deactivate s) := by
  rcases deactivate_cases s with ⟨_, h⟩ | ⟨_, h⟩
  · exact .of_eq (by rw [h])
  · exact ⟨[.persist s.img], by rw [h], List.length_filter_le _ _, by simp [h]⟩

/-- Settles O53: the outputs of each kind of step. -/
theorem stepAppendsAtMostOneRespond : Obligations.StepAppendsAtMostOneRespond := by
  intro s t h
  show AppendsOutputs s t
  rcases step_cases h with ⟨_, rfl⟩ | ⟨img, rest, _, rfl⟩ | ⟨f, rest, i, _, _, he⟩ | ⟨f, rest, _, _, rfl | ⟨bytes, rfl⟩⟩ |
    ⟨rest, _, rfl⟩ | ⟨rest, _, rfl⟩ | ⟨rest, _, rfl⟩
  · exact .of_eq rfl
  · exact .of_eq rfl
  · exact he.appendsOutputs
  · exact .of_eq rfl
  · exact .of_respond rfl
  · exact .of_eq rfl
  · exact deactivate_appendsOutputs _
  · exact ⟨[.hostData s.img], rfl, List.length_filter_le _ _, by simp [hostRead]⟩

/-! ## The image -/

/-- `m` is the image an accepted WRITE of page `p` leaves of `s` (R151 to R153). -/
def StoresPage (s : State) (p : Byte) (m : Memory) : Prop :=
  p.toNat ≤ writeCeil s ∧ (s.bd = true ∨ s.lp.getLsbD p.toNat = false) ∧
    ∃ d0 d1 d2 d3, m = writtenImage p d0 d1 d2 d3 s

/-- What an instruction does to the image: nothing, REPAIR, or the store of an accepted WRITE. -/
theorem ExecEffect.img_cases {i : Instr} {s t : State} (he : ExecEffect i s t) :
    t.img = s.img ∨ t.img = Memory.repair s.img ∨ ∃ p, StoresPage s p t.img := by
  cases he with
  | responds => exact .inl rfl
  | silent => exact .inl rfl
  | stores p d0 d1 d2 d3 _ inRange unlocked => exact .inr (.inr ⟨p, inRange, unlocked, d0, d1, d2, d3, rfl⟩)
  | authenticates => exact .inl rfl
  | opens => exact .inl rfl
  | closes => exact .inr (.inl rfl)
  | restarts => exact .inr (.inl rfl)
  | restartsPersisting => exact .inr (.inl rfl)

/-- What a command frame does to the image. -/
theorem frame_img_cases {s t : State} {f : List Byte} {rest : List Event} (hin : s.inbox = .frame f :: rest)
    (h : step s = .next t) :
    t.img = s.img ∨ t.img = Memory.repair s.img ∨ ∃ p, StoresPage s p t.img := by
  rcases frame_step_cases hin h with ⟨i, _, he⟩ | rfl | ⟨bytes, rfl⟩
  · -- a WRITE reads no inbox, so it stores the same with the frame taken off
    exact he.img_cases
  · exact .inl rfl
  · exact .inl rfl

/-- What a step does to the image: what a frame can do, or the load of the host's image, repaired (R196). -/
theorem step_img_cases {s t : State} (h : step s = .next t) :
    t.img = s.img ∨ t.img = Memory.repair s.img ∨ (∃ p, StoresPage s p t.img) ∨
      ∃ img, t.img = Memory.repair (Memory.ofImage img) := by
  rcases step_cases h with ⟨_, rfl⟩ | ⟨img, rest, _, rfl⟩ | ⟨f, rest, i, _, _, he⟩ | ⟨f, rest, _, _, rfl | ⟨bytes, rfl⟩⟩ |
    ⟨rest, _, rfl⟩ | ⟨rest, _, rfl⟩ | ⟨rest, _, rfl⟩
  · exact .inl rfl
  · exact .inr (.inr (.inr ⟨img, rfl⟩))
  · rcases he.img_cases with same | repaired | stored
    · exact .inl same
    · exact .inr (.inl repaired)
    · exact .inr (.inr (.inl stored))
  · exact .inl rfl
  · exact .inl rfl
  · exact .inl rfl
  · exact .inl (by rw [deactivate_eq])
  · exact .inl rfl

/-- An accepted WRITE keeps the canonical form: its page lies in the image. -/
theorem StoresPage.wf {s : State} {p : Byte} {m : Memory} (hst : StoresPage s p m) (hm : Memory.wf s.img = true) :
    Memory.wf m = true := by
  obtain ⟨inRange, _, d0, d1, d2, d3, rfl⟩ := hst
  exact wf_writtenImage p d0 d1 d2 d3 s hm (inRange.trans (writeCeil_le s))

/-- Every step keeps the image's canonical form. -/
theorem step_keeps_wf {s t : State} (hm : Memory.wf s.img = true) (h : step s = .next t) : Memory.wf t.img = true := by
  rcases step_img_cases h with same | repaired | ⟨p, stored⟩ | ⟨img, loaded⟩
  · rwa [same]
  · rw [repaired]
    exact Memory.wf_repair _ hm
  · exact stored.wf hm
  · rw [loaded]
    exact Memory.wf_repair _ (Memory.wf_ofImage img)

/-- Settles O43: the image stays canonical, and a step's new snapshots are of the image it leaves. -/
theorem stepKeepsImagesCanonical : Obligations.StepKeepsImagesCanonical := by
  rintro s t ⟨hm, hout⟩ h
  have hm' : Memory.wf t.img = true := step_keeps_wf hm h
  obtain ⟨out, happ, _, hsnap⟩ := stepAppendsAtMostOneRespond s t h
  refine ⟨hm', fun o ho => ?_⟩
  rw [happ, List.mem_append] at ho
  rcases ho with old | new
  · exact hout o old
  · cases o with
    | respond => rfl
    | persist m => exact hsnap m (.inl new) ▸ hm'
    | nfcRestart => rfl
    | hostData m => exact hsnap m (.inr new) ▸ hm'

/-- Settles O44: nothing is listed and nothing was emitted. -/
theorem resetImagesCanonical : Obligations.ResetImagesCanonical :=
  ⟨Memory.wf_nil, fun _ ho => nomatch ho⟩

/-! ## AUTH, BD and the mode -/

/-- The step takes one of the events that end in AUTH = BD = 0: DEACTIVATE, HOST_LOAD, RESTART_NFC or BD_CLOSE (R37, R38). -/
def TakesReset (s : State) : Prop :=
  TakesEvent s .deactivate ∨ (∃ img, TakesEvent s (.hostLoad img)) ∨ TakesInstr s .restartNfc ∨
    (s.bd = true ∧ TakesInstr s .bdToggle)

/-- The step takes BD_OPEN (R171). -/
def TakesOpen (s : State) : Prop := s.bd = false ∧ TakesInstr s .bdToggle

/-- The step takes a PWD_AUTH with the stored password (R166). -/
def TakesMatch (s : State) : Prop :=
  ∃ k0 k1 k2 k3, TakesInstr s (.pwdAuth k0 k1 k2 k3) ∧ PasswordMatches s.img k0 k1 k2 k3

/-- The recompute points of R41 are the resets and the password match. -/
theorem atRecomputePoint_iff (s : State) : AtRecomputePoint s ↔ TakesReset s ∨ TakesMatch s := by
  simp only [AtRecomputePoint, TakesReset, TakesMatch, or_assoc]

/-- What a step did to AUTH and BD, and by which event. -/
inductive SessionChange (s t : State) : Prop
  /-- The session is reset. -/
  | resets : TakesReset s → t.auth = false → t.bd = false → SessionChange s t
  /-- The backdoor opens. -/
  | opens : TakesOpen s → t.auth = s.auth → t.bd = true → SessionChange s t
  /-- The password matches. -/
  | authenticates : TakesMatch s → t.auth = true → t.bd = s.bd → SessionChange s t
  /-- Any other event, or none. -/
  | keeps : ¬AtRecomputePoint s → ¬TakesOpen s → t.auth = s.auth → t.bd = s.bd → SessionChange s t

/-- What an instruction did to AUTH and BD. -/
theorem ExecEffect.sessionChange {s t : State} {f : List Byte} {rest : List Event} {i : Instr}
    (hin : s.inbox = .frame f :: rest) (hd : decode f = .instr i) (he : ExecEffect i { s with inbox := rest } t) :
    SessionChange s t := by
  have takes : TakesInstr s i := ⟨f, rest, hin, hd⟩
  have point : AtRecomputePoint s ↔ RecomputesLocks i s := atRecomputePoint_iff_of_instr hin hd
  have toggle : TakesOpen s ↔ s.bd = false ∧ .bdToggle = i := and_congr_right fun _ => takesInstr_iff hin hd _
  cases he with
  | responds _ _ bytes noMatch notRestart notToggle =>
    refine .keeps ?_ (fun h => notToggle (toggle.1 h).2.symm) rfl rfl
    rw [point]
    rintro (h | ⟨_, h⟩ | ⟨k0, k1, k2, k3, h, hm⟩)
    · exact notRestart h
    · exact notToggle h
    · exact noMatch k0 k1 k2 k3 h hm
  | silent _ _ hk =>
    rcases hk with rfl | rfl <;> exact .keeps (by simp [point, RecomputesLocks]) (by simp [toggle]) rfl rfl
  | stores => exact .keeps (by simp [point, RecomputesLocks]) (by simp [toggle]) rfl rfl
  | authenticates k0 k1 k2 k3 _ hm => exact .authenticates ⟨k0, k1, k2, k3, takes, hm⟩ rfl rfl
  | opens _ hb => exact .opens ⟨hb, takes⟩ rfl rfl
  | closes _ hb => exact .resets (.inr (.inr (.inr ⟨hb, takes⟩))) rfl rfl
  | restarts => exact .resets (.inr (.inr (.inl takes))) rfl rfl
  | restartsPersisting => exact .resets (.inr (.inr (.inl takes))) rfl rfl

/-- An event that is no instruction, DEACTIVATE or HOST_LOAD, and changes neither bit. -/
theorem SessionChange.of_other_event {s t : State} {e : Event} {rest : List Event} (hin : s.inbox = e :: rest)
    (noInstr : ∀ f i, e = .frame f → decode f ≠ .instr i) (notDeactivate : e ≠ .deactivate)
    (notLoad : ∀ img, e ≠ .hostLoad img) (auth : t.auth = s.auth) (bd : t.bd = s.bd) : SessionChange s t :=
  .keeps (by simp [atRecomputePoint_iff_of_event hin noInstr, notDeactivate, notLoad])
    (fun h => not_takesInstr hin noInstr _ h.2) auth bd

/-- What a step did to AUTH and BD. -/
theorem step_sessionChange {s t : State} (h : step s = .next t) : SessionChange s t := by
  rcases step_cases h with ⟨hin, rfl⟩ | ⟨img, rest, hin, rfl⟩ | ⟨f, rest, i, hin, hd, he⟩ | ⟨f, rest, hin, hd, ht⟩ |
    ⟨rest, hin, rfl⟩ | ⟨rest, hin, rfl⟩ | ⟨rest, hin, rfl⟩
  · exact .keeps (not_atRecomputePoint_of_empty hin) (fun h => (takes_nothing hin).1 _ h.2) rfl rfl
  · exact .resets (.inr (.inl ⟨img, rest, hin⟩)) rfl rfl
  · exact he.sessionChange hin hd
  · have noInstr : ∀ f' i, Event.frame f = .frame f' → decode f' ≠ .instr i := by
      rintro _ i ⟨⟩
      exact hd i
    rcases ht with rfl | ⟨bytes, rfl⟩
    · exact .of_other_event hin noInstr (by simp) (by simp) rfl rfl
    · exact .of_other_event hin noInstr (by simp) (by simp) rfl rfl
  · exact .of_other_event hin (by simp) (by simp) (by simp) rfl rfl
  · obtain ⟨auth, bd, _⟩ := deactivate_fields { s with inbox := rest }
    exact .resets (.inl ⟨rest, hin⟩) auth bd
  · exact .of_other_event hin (by simp) (by simp) (by simp) rfl rfl

/-- Settles O50: only a match sets AUTH and only a reset clears it. -/
theorem authIsSetOnlyByAPasswordMatch : Obligations.AuthIsSetOnlyByAPasswordMatch := by
  intro s t h
  cases step_sessionChange h with
  | resets reset auth _ => exact ⟨fun _ set => by simp [auth] at set, fun _ _ => reset⟩
  | opens _ auth _ => exact ⟨fun h0 h1 => by simp [auth, h0] at h1, fun h1 h0 => by simp [auth, h1] at h0⟩
  | authenticates hmatch auth _ => exact ⟨fun _ _ => hmatch, fun _ clear => by simp [auth] at clear⟩
  | keeps _ _ auth _ => exact ⟨fun h0 h1 => by simp [auth, h0] at h1, fun h1 h0 => by simp [auth, h1] at h0⟩

/-- Settles O51: only BD_OPEN sets BD and only a reset clears it. -/
theorem backdoorIsSetOnlyByTheToggle : Obligations.BackdoorIsSetOnlyByTheToggle := by
  intro s t h
  cases step_sessionChange h with
  | resets reset _ bd =>
    refine ⟨fun _ set => by simp [bd] at set, fun _ _ => ?_⟩
    rcases reset with deact | load | restart | ⟨_, toggle⟩
    · exact .inl deact
    · exact .inr (.inl load)
    · exact .inr (.inr (.inl restart))
    · exact .inr (.inr (.inr toggle))
  | opens takesOpen _ bd => exact ⟨fun _ _ => takesOpen.2, fun _ clear => by simp [bd] at clear⟩
  | authenticates _ _ bd => exact ⟨fun h0 h1 => by simp [bd, h0] at h1, fun h1 h0 => by simp [bd, h1] at h0⟩
  | keeps _ _ _ bd => exact ⟨fun h0 h1 => by simp [bd, h0] at h1, fun h1 h0 => by simp [bd, h1] at h0⟩

/-! An event is one thing only: the three kinds of step that change the session shut each other out. -/

theorem TakesInstr.unique {s : State} {i j : Instr} (hi : TakesInstr s i) (hj : TakesInstr s j) : i = j := by
  obtain ⟨f, rest, hin, hd⟩ := hi
  exact ((takesInstr_iff hin hd j).1 hj).symm

theorem TakesInstr.not_takesEvent {s : State} {i : Instr} {e : Event} (hi : TakesInstr s i) (he : ∀ f, e ≠ .frame f) :
    ¬TakesEvent s e := by
  obtain ⟨f, rest, hin, _⟩ := hi
  exact fun h => he f ((takesEvent_iff hin e).1 h)

/-- A reset that is an instruction is RESTART_NFC or BD_CLOSE. -/
theorem TakesReset.instr {s : State} {i : Instr} (reset : TakesReset s) (hi : TakesInstr s i) :
    i = .restartNfc ∨ (s.bd = true ∧ i = .bdToggle) := by
  rcases reset with deact | ⟨img, load⟩ | restart | ⟨bd, toggle⟩
  · exact absurd deact (hi.not_takesEvent (by simp))
  · exact absurd load (hi.not_takesEvent (by simp))
  · exact .inl (hi.unique restart)
  · exact .inr ⟨bd, hi.unique toggle⟩

theorem TakesReset.not_takesOpen {s : State} (reset : TakesReset s) : ¬TakesOpen s := by
  rintro ⟨clear, toggle⟩
  rcases reset.instr toggle with h | ⟨set, _⟩
  · cases h
  · simp [clear] at set

theorem TakesReset.not_takesMatch {s : State} (reset : TakesReset s) : ¬TakesMatch s := by
  rintro ⟨k0, k1, k2, k3, pwd, _⟩
  rcases reset.instr pwd with h | ⟨_, h⟩ <;> cases h

theorem TakesOpen.not_takesMatch {s : State} (takesOpen : TakesOpen s) : ¬TakesMatch s := by
  rintro ⟨k0, k1, k2, k3, pwd, _⟩
  cases takesOpen.2.unique pwd

/-- BACKDOOR is the mode exactly under BD (R36). -/
theorem modeOf_eq_backdoor (s : State) : modeOf s = .backdoor ↔ s.bd = true := by
  unfold modeOf
  cases s.bd <;> cases s.auth <;> simp

/-- The mode is a function of AUTH and BD (R36). -/
theorem modeOf_congr {s t : State} (auth : t.auth = s.auth) (bd : t.bd = s.bd) : modeOf t = modeOf s := by
  simp [modeOf, auth, bd]

/-- A match leaves LOCKED for AUTHENTICATED and keeps the other two modes (R217, the spec's own decision D16). -/
theorem modeOf_of_auth_set {s t : State} (auth : t.auth = true) (bd : t.bd = s.bd) :
    modeOf t = if modeOf s = .locked then .authenticated else modeOf s := by
  unfold modeOf
  rw [auth, bd]
  cases s.bd <;> cases s.auth <;> simp

/-- The table of R217 in one place: what each kind of step does to the mode. -/
theorem SessionChange.mode {s t : State} (hc : SessionChange s t) :
    (TakesReset s → modeOf t = .locked) ∧ (TakesOpen s → modeOf t = .backdoor) ∧
    (TakesMatch s → modeOf t = if modeOf s = .locked then .authenticated else modeOf s) ∧
    (modeOf t ≠ modeOf s → TakesReset s ∨ TakesOpen s ∨ (modeOf s = .locked ∧ TakesMatch s)) := by
  cases hc with
  | resets reset auth bd =>
    exact ⟨fun _ => by simp [modeOf, auth, bd], fun h => absurd h reset.not_takesOpen,
      fun h => absurd h reset.not_takesMatch, fun _ => .inl reset⟩
  | opens takesOpen _ bd =>
    exact ⟨fun h => absurd takesOpen h.not_takesOpen, fun _ => (modeOf_eq_backdoor t).2 bd,
      fun h => absurd h takesOpen.not_takesMatch, fun _ => .inr (.inl takesOpen)⟩
  | authenticates hmatch auth bd =>
    have mode := modeOf_of_auth_set auth bd
    refine ⟨fun h => absurd hmatch h.not_takesMatch, fun h => absurd hmatch h.not_takesMatch, fun _ => mode,
      fun changed => .inr (.inr ⟨?_, hmatch⟩)⟩
    by_contra notLocked
    exact changed (mode.trans (if_neg notLocked))
  | keeps notPoint notOpen auth bd =>
    rw [atRecomputePoint_iff, not_or] at notPoint
    obtain ⟨notReset, notMatch⟩ := notPoint
    exact ⟨fun h => absurd h notReset, fun h => absurd h notOpen, fun h => absurd h notMatch,
      fun changed => absurd (modeOf_congr auth bd) changed⟩

/-- Settles O48: the statement's clauses are those of `SessionChange.mode`, with BACKDOOR for BD. -/
theorem onlyListedEventsChangeTheMode : Obligations.OnlyListedEventsChangeTheMode := by
  intro s t h
  obtain ⟨reset, opens, matched, changed⟩ := (step_sessionChange h).mode
  refine ⟨?_, ?_, matched, fun hne => ?_⟩
  · rw [modeOf_eq_backdoor]
    exact reset
  · rw [Ne, modeOf_eq_backdoor, Bool.not_eq_true]
    exact opens
  · rcases changed hne with (deact | load | restart | ⟨_, toggle⟩) | ⟨_, toggle⟩ | hmatch
    · exact .inl deact
    · exact .inr (.inl load)
    · exact .inr (.inr (.inl restart))
    · exact .inr (.inr (.inr (.inl toggle)))
    · exact .inr (.inr (.inr (.inl toggle)))
    · exact .inr (.inr (.inr (.inr hmatch)))

/-! ## DIRTY -/

/-- What a step did to DIRTY: nothing; or an accepted WRITE set it; or the step cleared it and persisted its image. -/
def DirtyChange (s t : State) (takesWrite : Prop) : Prop :=
  t.dirty = s.dirty ∨
  (t.dirty = true ∧ takesWrite ∧ t.outbox = s.outbox ++ [.respond [0x0A#8]]) ∨
  (t.dirty = false ∧ .persist t.img ∈ t.outbox.drop s.outbox.length)

/-- What an instruction did to DIRTY. -/
theorem ExecEffect.dirtyChange {i : Instr} {s t : State} (he : ExecEffect i s t) :
    DirtyChange s t (∃ p d0 d1 d2 d3, i = .write p d0 d1 d2 d3) := by
  cases he with
  | responds => exact .inl rfl
  | silent => exact .inl rfl
  | stores p d0 d1 d2 d3 => exact .inr (.inl ⟨rfl, ⟨p, d0, d1, d2, d3, rfl⟩, rfl⟩)
  | authenticates => exact .inl rfl
  | opens => exact .inl rfl
  | closes => exact .inr (.inr ⟨rfl, by simp⟩)
  | restarts => exact .inl rfl
  | restartsPersisting => exact .inr (.inr ⟨rfl, by simp⟩)

/-- DEACTIVATE clears DIRTY only with a persist (R192). -/
theorem deactivate_dirtyChange (s : State) : DirtyChange s (deactivate s) False := by
  rcases deactivate_cases s with ⟨clean, h⟩ | ⟨_, h⟩
  · exact .inl (by rw [h])
  · exact .inr (.inr (by simp [h]))

/-- What a step did to DIRTY, but for a HOST_LOAD, which discards it (the spec's own decision D26). -/
theorem step_dirtyChange {s t : State} (h : step s = .next t) :
    (t.dirty = false ∧ ∃ img, TakesEvent s (.hostLoad img)) ∨
    DirtyChange s t (∃ p d0 d1 d2 d3, TakesInstr s (.write p d0 d1 d2 d3)) := by
  rcases step_cases h with ⟨_, rfl⟩ | ⟨img, rest, hin, rfl⟩ | ⟨f, rest, i, hin, hd, he⟩ |
    ⟨f, rest, _, _, rfl | ⟨bytes, rfl⟩⟩ | ⟨rest, _, rfl⟩ | ⟨rest, _, rfl⟩ | ⟨rest, _, rfl⟩
  · exact .inr (.inl rfl)
  · exact .inl ⟨rfl, img, rest, hin⟩
  · rcases he.dirtyChange with same | ⟨set, ⟨p, d0, d1, d2, d3, rfl⟩, acked⟩ | persisted
    · exact .inr (.inl same)
    · exact .inr (.inr (.inl ⟨set, ⟨p, d0, d1, d2, d3, f, rest, hin, hd⟩, acked⟩))
    · exact .inr (.inr (.inr persisted))
  · exact .inr (.inl rfl)
  · exact .inr (.inl rfl)
  · exact .inr (.inl rfl)
  · rcases deactivate_dirtyChange { s with inbox := rest } with same | ⟨_, no, _⟩ | persisted
    · exact .inr (.inl same)
    · exact no.elim
    · exact .inr (.inr (.inr persisted))
  · exact .inr (.inl rfl)

/-- Settles O52: the three changes of DIRTY and the load, each against the two directions. -/
theorem dirtyIsClearedOnlyWithAPersist : Obligations.DirtyIsClearedOnlyWithAPersist := by
  intro s t h
  rcases step_dirtyChange h with ⟨clear, load⟩ | same | ⟨set, write, acked⟩ | ⟨clear, persisted⟩
  · exact ⟨fun _ set => by simp [clear] at set, fun _ _ => .inl load⟩
  · exact ⟨fun h0 h1 => by simp [same, h0] at h1, fun h1 h0 => by simp [same, h1] at h0⟩
  · exact ⟨fun _ _ => ⟨write, acked⟩, fun _ clear => by simp [set] at clear⟩
  · exact ⟨fun _ set => by simp [clear] at set, fun _ _ => .inr persisted⟩

/-! ## LP -/

/-- Where LP is fresh it is in force, for the lock bytes of the image. -/
theorem LocksFresh.locksInForce {s : State} (h : LocksFresh s) : LocksInForce s := ⟨_, _, _, h⟩

/-- LP in force depends on LP, AUTH and the parameters alone. -/
theorem LocksInForce.congr {s t : State} (h : LocksInForce s) (lp : t.lp = s.lp) (params : t.params = s.params)
    (auth : t.auth = s.auth) : LocksInForce t := by
  obtain ⟨b10, b11, b520, hlp⟩ := h
  exact ⟨b10, b11, b520, by rw [lp, params, auth, hlp]⟩

/-- AUTH changes only at a recompute point (R37, R41). -/
theorem SessionChange.auth_eq {s t : State} (hc : SessionChange s t) (notPoint : ¬AtRecomputePoint s) :
    t.auth = s.auth := by
  rw [atRecomputePoint_iff, not_or] at notPoint
  obtain ⟨notReset, notMatch⟩ := notPoint
  cases hc with
  | resets reset => exact absurd reset notReset
  | opens _ auth => exact auth
  | authenticates hmatch => exact absurd hmatch notMatch
  | keeps _ _ auth => exact auth

/-- Settles O45: a recompute point leaves LP fresh; any other step keeps LP, AUTH and the parameters. -/
theorem stepKeepsLocksInForce : Obligations.StepKeepsLocksInForce := by
  intro s t inForce h
  rcases step_lp_cases h with ⟨_, fresh⟩ | ⟨notPoint, lp⟩
  · exact fresh.locksInForce
  · exact inForce.congr lp (step_params_imageLoaded h).1 ((step_sessionChange h).auth_eq notPoint)

/-- Settles O46: State.reset's LP is LOCKS of the image it holds. -/
theorem resetLocksInForce : Obligations.ResetLocksInForce :=
  LocksFresh.locksInForce (s := State.reset) rfl

/-- LP in force locks pages 0 and 1, the UID block (R110). -/
theorem LocksInForce.uid_locked {s : State} (h : LocksInForce s) {p : Nat} (hp : p < 2) : s.lp.getLsbD p = true := by
  obtain ⟨b10, b11, b520, hlp⟩ := h
  rw [hlp, pageVector_getLsbD _ _ (by omega), mem_lockedPages]
  omega

/-! ## The bytes a WRITE cannot reach -/

/-- Outside BACKDOOR no WRITE is raw (R156). -/
theorem rawConfigWrite_of_bd_clear {s : State} (hbd : s.bd = false) : rawConfigWrite s = false := by
  simp [rawConfigWrite, hbd]

/-- A WRITE changes no byte outside its page. -/
theorem StoresPage.read_outside {s : State} {p : Byte} {m : Memory} (hst : StoresPage s p m) {x : Nat}
    (hx : ¬(4 * p.toNat ≤ x ∧ x < 4 * p.toNat + 4)) : Memory.read m x = Memory.read s.img x := by
  obtain ⟨_, _, d0, d1, d2, d3, rfl⟩ := hst
  exact read_writtenImage_outside p d0 d1 d2 d3 s x hx

/-- Outside BACKDOOR the page of an accepted WRITE is not locked (R153). -/
theorem StoresPage.unlocked {s : State} {p : Byte} {m : Memory} (hst : StoresPage s p m) (hbd : s.bd = false) :
    s.lp.getLsbD p.toNat = false := by
  obtain ⟨_, set | unlocked, _⟩ := hst
  · simp [hbd] at set
  · exact unlocked

/-- Outside BACKDOOR the page of an accepted WRITE is at most 134 (R152). -/
theorem StoresPage.page_le {s : State} {p : Byte} {m : Memory} (hst : StoresPage s p m) (hbd : s.bd = false) :
    p.toNat ≤ 134 := by
  obtain ⟨inRange, _⟩ := hst
  simpa [writeCeil, hbd] using inRange

/-- The checksums and the UID bytes they are computed from stand below offset 9. -/
theorem ChecksumsMatch.congr {m m' : Memory} (h : ChecksumsMatch m) (same : ∀ x, x < 9 → Memory.read m' x = Memory.read m x) :
    ChecksumsMatch m' := by
  simp only [ChecksumsMatch, same 0 (by decide), same 1 (by decide), same 2 (by decide), same 3 (by decide),
    same 4 (by decide), same 5 (by decide), same 6 (by decide), same 7 (by decide), same 8 (by decide)]
  exact h

/-- With pages 0 and 1 locked and only page 2's lock bytes OR'd, an accepted WRITE outside BACKDOOR reaches no byte below
offset 9: the one such byte of page 2 is its first, which is no lock byte (R45, R154). -/
theorem StoresPage.read_below_nine {s : State} {p : Byte} {m : Memory} (hst : StoresPage s p m) (hbd : s.bd = false)
    (inForce : LocksInForce s) (scope : s.params.page2OrScope = .lockBytesOnly) {x : Nat} (hx : x < 9) :
    Memory.read m x = Memory.read s.img x := by
  have notUid : 2 ≤ p.toNat := by
    by_contra hp
    have unlocked := hst.unlocked hbd
    simp [inForce.uid_locked (Nat.not_le.1 hp)] at unlocked
  by_cases inPage2 : p.toNat = 2 ∧ x = 8
  · obtain ⟨hp, rfl⟩ := inPage2
    obtain ⟨_, _, d0, d1, d2, d3, rfl⟩ := hst
    exact (read_writtenImage_page2 hp (rawConfigWrite_of_bd_clear hbd) d0 d1 d2 d3 (i := 0) (by decide)).trans
      (if_pos ⟨scope, by decide⟩)
  · exact hst.read_outside (by omega)

/-- Settles O47: a step leaves the checksums' bytes alone, or ends in REPAIR, which makes them match. -/
theorem stepKeepsChecksumsOutsideBackdoor : Obligations.StepKeepsChecksumsOutsideBackdoor := by
  intro s t hsum inForce hbd scope h
  rcases step_img_cases h with same | repaired | ⟨p, stored⟩ | ⟨img, loaded⟩
  · rwa [same]
  · rw [repaired]
    exact checksumsMatch_repair _
  · exact hsum.congr fun x hx => stored.read_below_nine hbd inForce scope hx
  · rw [loaded]
    exact checksumsMatch_repair _

/-- Settles O55: the WRITE of another page does not reach the locked one, and REPAIR writes offsets 3 and 8 only. -/
theorem lockedPagesAreProtectedFromFrames : Obligations.LockedPagesAreProtectedFromFrames := by
  intro s t f rest p i hbd hin _ locked hi h3 h8 h
  rcases frame_img_cases hin h with same | repaired | ⟨q, stored⟩
  · rw [same]
  · rw [repaired, Memory.read_repair_of_ne _ h3 h8]
  · have otherPage : q.toNat ≠ p := by
      rintro rfl
      simp [stored.unlocked hbd] at locked
    exact stored.read_outside (by omega)

/-- Settles O56: the signature begins above page 134. -/
theorem signatureIsFixedOutsideBackdoor : Obligations.SignatureIsFixedOutsideBackdoor := by
  intro s t f rest a hbd hin hlo _ h
  rcases frame_img_cases hin h with same | repaired | ⟨p, stored⟩
  · rw [same]
  · rw [repaired, Memory.read_repair_of_ne _ (by omega) (by omega)]
  · have page := stored.page_le hbd
    exact stored.read_outside (by omega)

/-- An OR clears no bit. -/
theorem and_or_self_left (old d : Byte) : old &&& (old ||| d) = old := by
  ext
  simp +contextual

/-- Outside BACKDOOR a WRITE clears no bit of offsets 10 to 15: there it ORs or does nothing (R154, R155). -/
theorem StoresPage.keeps_bits {s : State} {p : Byte} {m : Memory} (hst : StoresPage s p m) (hbd : s.bd = false)
    {a : Nat} (hlo : 10 ≤ a) (hhi : a ≤ 15) : Memory.read s.img a &&& Memory.read m a = Memory.read s.img a := by
  have notRaw := rawConfigWrite_of_bd_clear hbd
  by_cases inPage : 4 * p.toNat ≤ a ∧ a < 4 * p.toNat + 4
  · obtain ⟨_, _, d0, d1, d2, d3, rfl⟩ := hst
    obtain ⟨i, rfl⟩ : ∃ i, a = pageOffset p.toNat + i := ⟨a - 4 * p.toNat, by simp only [pageOffset]; omega⟩
    have hi : i < 4 := by simp only [pageOffset] at inPage; omega
    have hp : p.toNat = 2 ∨ p.toNat = 3 := by omega
    rcases hp with hp | hp
    · rw [hp, read_writtenImage_page2 hp notRaw d0 d1 d2 d3 hi]
      split
      · exact BitVec.and_self
      · exact and_or_self_left _ _
    · rw [hp, read_writtenImage_page3 hp notRaw d0 d1 d2 d3 hi]
      exact and_or_self_left _ _
  · rw [hst.read_outside inPage, BitVec.and_self]

/-- Settles O57: a WRITE clears no bit there, and REPAIR does not reach these offsets. -/
theorem lockAndCcBitsAreNeverCleared : Obligations.LockAndCcBitsAreNeverCleared := by
  intro s t f rest a hbd hin hlo hhi h
  rcases frame_img_cases hin h with same | repaired | ⟨p, stored⟩
  · rw [same, BitVec.and_self]
  · rw [repaired, Memory.read_repair_of_ne _ (by omega) (by omega), BitVec.and_self]
  · exact stored.keeps_bits hbd hlo hhi

end Sys2Proof.Machine
